-- ==== Sys2Proof/Word.lean ====
section
/-! DEFINITION. The words the HX3216 handles: bytes of bursts, of the configuration image and of status-port responses,
5-6-5 pixels, and the 16-bit numbers that wrap. -/

namespace Sys2Proof

/-- One byte of a burst, of the configuration image or of a status-port response. -/
abbrev Byte := BitVec 8

/-- A frame number: 16 bits, wrapping at 65536 (00_scope, Conventions, "Frame numbers"). -/
abbrev Frame := BitVec 16

/-- A round number: 16 bits, wrapping at 65536 (R18). -/
abbrev RoundNo := BitVec 16

/-- A pixel inside the station: 5 bits of red, 6 of green, 5 of blue (section 1.4). -/
abbrev Pixel := BitVec 16

/-- The 16-bit wall digest (R44). -/
abbrev Digest := BitVec 16

end Sys2Proof
end

