-- ==== Sys2Proof/Syntax.lean ====
section
/-! DEFINITION. The commands of the block: one constructor per row of spec/opcode_table.json. A command is an event at the
station: a burst on the wall bus, an edge of the pixel input port, the expiry of a timer, the completion of an operation that
takes time, or a command of the status port. -/

namespace Sys2Proof

/-- The blocks a round start reaches, each as an arrival of its own (R17, R57, R81, R86, R88, R149). The settle unit's arrival
takes the MARK's content and, when that makes a settle, hands its notices on. -/
inductive RoundArrival
  /-- the round timer takes the round number (R18) -/
  | number
  /-- the membership table ages its entries (R57) -/
  | ageing
  /-- the capture unit raises its silence count (R85, R86) -/
  | silence
  /-- the repair requester raises wait counts and lowers back-offs (R142, R146) -/
  | waits
  /-- the settle unit raises the open age and takes the MARK's content (R61) -/
  | settle
  deriving DecidableEq, Repr

/-- The blocks a STATE reaches in MEMBER, each as an arrival of its own (R24). -/
inductive StateArrival
  /-- the membership table (R55, R56) -/
  | record
  /-- the settle unit's catch-up (R76) -/
  | catchUp
  /-- the repair requester (R137) -/
  | published
  deriving DecidableEq, Repr

/-- In which order one event's arrivals are taken by the station's blocks. The manual fixes no order and gives the outcome of
each (R81, R88, R129, R149), so the order is an operand of the command that brings the event: every order can be sent.
An arrival a list does not name is taken after those it names. (Log entry 2.) -/
structure Orders where
  /-- the arrivals of a round start, first to last -/
  round : List RoundArrival
  /-- the arrivals of a STATE, first to last -/
  state : List StateArrival
  /-- a clean readback is reported to the item's owner before the burst heard is delivered -/
  reportFirst : Bool
  deriving DecidableEq, Repr

/-- The commands. `heard` is what the station heard of a burst on the medium, in whole bytes, first to last; for a burst the
station itself drives it decides the readback outcome (R32). -/
inductive Instr
  /-- RESET is asserted (R46). -/
  | reset
  /-- The single read of the configuration memory ends, having read `image`, bytes 0 to 255 (R39). -/
  | configReadComplete (image : List Byte)
  /-- The start-up clear of both banks ends (R121). -/
  | startUpClearComplete
  /-- The mark timer expires (R19, R20). -/
  | markTimerExpiry
  /-- The fourth consecutive silent expiry of the mark timer (R50). -/
  | joinAlone
  /-- A burst start is heard on the medium (R16, R17). -/
  | burstStart
  /-- The present position ends; `heard` is what was heard of a burst still on the medium (R16). -/
  | positionEnd (heard : List Byte) (orders : Orders)
  /-- The burst being heard ends and has been taken whole (R22). -/
  | burstTaken (heard : List Byte) (orders : Orders)
  /-- The readback fault, in the burst being sent, that brings the consecutive count to 8 (R34). -/
  | mediumFault (heard : List Byte)
  /-- The readback fault of the own STATE that brings the collision count to 2 (R35). -/
  | duplicateNumber (heard : List Byte)
  /-- The round start, at the end of the burst heard, that brings a PRESENT entry's count to A (R57). -/
  | memberAbsent (heard : List Byte) (orders : Orders)
  /-- The round start, at the end of the burst heard, that brings the join count to A+1 (R49). -/
  | joinByCount (heard : List Byte) (orders : Orders)
  /-- PIFS is asserted: a frame start at the pixel input port (R84, R89). -/
  | frameStart
  /-- PIDE falls: the row of `pixels`, all pixels taken since the last row completion or frame start, is closed (R84, R90). -/
  | rowCompletion (pixels : List Pixel)
  /-- The round start, at the end of the burst heard, that brings the silence count to the input silence limit (R86). -/
  | inputLost (heard : List Byte) (orders : Orders)
  /-- The placement in progress completes (R116). -/
  | placementComplete
  /-- The clear of the back bank completes (R123). -/
  | bankClearComplete
  /-- The scan-period timer expires: a scan start (R131). -/
  | scanStart
  /-- The scan has output its last pixel (R133). -/
  | scanEnd
  /-- The round start, at the end of the burst heard, that brings an entry's back-off to 0 (R146). -/
  | backoffEnd (heard : List Byte) (orders : Orders)
  /-- The round start, at the end of the burst heard, that brings a SENT entry's wait count to 6 (R147). -/
  | repairTimeout (heard : List Byte) (orders : Orders)
  /-- Status-port command 01h is taken (R164). -/
  | readSummary
  /-- Status-port command 02h is taken (R164). -/
  | readMembers
  /-- Status-port command 03h is taken (R165). -/
  | readCounters
  /-- Status-port command 04h is taken (R165). -/
  | clearCounters
  /-- Status-port command 05h is taken (R167). -/
  | readEvent
  /-- A command byte that is none of the five codes is taken (R163). -/
  | unknownCommand (code : Byte)
  /-- SPCS rises after every byte of the response has been clocked out (R163, R167). -/
  | transactionComplete
  /-- SPCS rises before the whole response has been clocked out (R163). -/
  | transactionCutShort
  /-- RESET is released (R163). -/
  | resetRelease
  deriving DecidableEq, Repr

end Sys2Proof
end

