-- ==== Sys2Proof/Decode.lean ====
section
/-! DEFINITION. The opcode table gives no bits for any row of this block, so no word spells a command (spec/98_reader.md:
"n_rows_with_fixed": 0). -/

namespace Sys2Proof

/-- The command that a word spells by the table's bits: none, since every row of the table is without bits. The byte codes of
the status port (R175) are the operands of its commands, not bits of the table. -/
def decodeTableWord (_nbits _w : Nat) : Option Instr := none

end Sys2Proof
end

