-- ==== Sys2Proof/Config.lean ====
section
/-! DEFINITION. The fixed numbers of the HX3216 (00_scope, "Fixed numbers") and the free values: results the manual leaves
open, about which nothing can be proved. -/

namespace Sys2Proof.Config

/-- Columns, and rows, of the canvas (R1). -/
def canvasSize : Nat := 4096
/-- Pixels in a full piece (R4). -/
def pieceWidth : Nat := 256
/-- Entries of a tile row's list at most (R14). -/
def rowPieces : Nat := 8
/-- Places of the retain ring (R97). -/
def retainRingSize : Nat := 1024
/-- Places of the publish queue (R99). -/
def publishQueueSize : Nat := 64
/-- Places of the landing queue (R112). -/
def landingQueueSize : Nat := 16
/-- Entries of the repair list at most (R135). -/
def repairListSize : Nat := 4
/-- Requests of the repair queue at most (R151). -/
def repairQueueSize : Nat := 8
/-- STATUS bursts of the reply queue at most (R151). -/
def replyQueueSize : Nat := 4
/-- Entries of the event record at most (R166). -/
def eventRecordSize : Nat := 32
/-- Largest value of a 16-bit saturating count (R61, R165). -/
def count16 : Nat := 65535
/-- Largest dropped-event count, silence count and RESYNC detail (R166, R85, R64). -/
def count8 : Nat := 255
/-- Largest pieces-sent and pieces-gone count of a request (R151). -/
def serviceCount : Nat := 4095
/-- Wait count at which a SENT entry has timed out (R142). -/
def waitLimit : Nat := 6
/-- Attempts of a repair entry at most (R136). -/
def attemptLimit : Nat := 3
/-- Consecutive readback faults that isolate the station (R34). -/
def mediumFaultLimit : Nat := 8
/-- Consecutive faults of the own STATE that isolate the station (R35). -/
def collisionLimit : Nat := 2
/-- Silent expiries after which a station joins alone (R50). -/
def silentExpiryLimit : Nat := 4
/-- Bytes of the configuration image (R39). -/
def imageSize : Nat := 256
/-- Bytes that pass in one position at 1 Gbit/s: 5 µs (R15, R170). -/
def positionBytes : Nat := 625

/-- FREE VALUE (log entry 3): what pixel `address` of a bank holds after power-on or reset, before any clear has written it
("The contents of both banks are not known after reset", R120). `seq` is fresh at each reset. -/
opaque powerOnPixel (seq address : Nat) : Pixel

/-- FREE VALUE (log entry 4): how many pixels a bank clear had written when it was stopped (R123 bounds the whole clear's time
and says nothing of the progress of a stopped one). -/
opaque clearProgress (seq : Nat) : Nat

/-- FREE VALUE (log entry 4): how many pixels a placement had written when it was stopped (R117: "The pixels already written
stay in the back bank, and the rest are not written"). -/
opaque placementProgress (seq : Nat) : Nat

end Sys2Proof.Config
end

