-- ==== Sys2Proof/Machine/State.lean ====
section
/-! DEFINITION. All the state the manual gives the station, as plain data, block by block, and the state after reset. -/

namespace Sys2Proof.Machine

/-! ## Names -/

/-- The station state (R46). -/
inductive StationState
  | loading
  | listen
  | member
  | isolated
  deriving DecidableEq, Repr

/-- The fault code (R46). -/
inductive FaultCode
  | noFault
  | imageCheck
  | range
  | tileOutsideCanvas
  | streamOutsideCanvas
  | streamOverlap
  | publisherConflict
  | positionMap
  | planOverflow
  | duplicateNumber
  | mediumFault
  deriving DecidableEq, Repr

/-- The kind of a settled frame (R60). -/
inductive SettleKind
  | start
  | commit
  | abandon
  deriving DecidableEq, Repr

/-- Pixel format of a stream on the bus (section 1.4). -/
inductive Format
  | wide
  | narrow
  deriving DecidableEq, Repr

/-- The position counter (R16). -/
inductive Position
  | mark
  | numbered (k : Nat)
  | tail
  deriving DecidableEq, Repr

/-- Membership status (R54). -/
inductive MemberStatus
  | unheard
  | present
  | absent
  | foreign
  | self
  deriving DecidableEq, Repr

/-- Capture state (R87). -/
inductive CaptureState
  | waiting
  | capturing
  | holding
  | dormant
  deriving DecidableEq, Repr

/-- Input state (R85). -/
inductive InputState
  | live
  | lost
  deriving DecidableEq, Repr

/-- What becomes of the rows of the current input frame (R87). -/
inductive Disposition
  | taken
  | skipped
  deriving DecidableEq, Repr

/-- The placement engine; while PLACING it holds the head of the landing queue (R114). -/
inductive Engine
  | idle
  | placing
  deriving DecidableEq, Repr

/-- The two banks (R120). -/
inductive BankName
  | bank0
  | bank1
  deriving DecidableEq, Repr

/-- The clear state (R120). -/
inductive ClearState
  | idle
  | clearingBoth
  | clearingBack
  deriving DecidableEq, Repr

/-- The scan position (R131). -/
inductive ScanPosition
  | idle
  | row (y : Nat)
  deriving DecidableEq, Repr

/-- The state of a repair entry (R136). -/
inductive EntryState
  | composed
  | sent
  | closed
  deriving DecidableEq, Repr

/-- The condition code of a repair entry (R136, R148). -/
inductive ConditionCode
  | delivered
  | partly
  | gone
  | malformed
  | refused
  | noResponse
  | satisfied
  | withdrawn
  | overtaken
  deriving DecidableEq, Repr

/-- The outcome a STATUS carries (R159, R172). -/
inductive Outcome
  | delivered
  | partly
  | gone
  | refused
  | malformed
  deriving DecidableEq, Repr

/-- The event kinds (section 10.4). -/
inductive EventKind
  | joined
  | isolated
  | memberPresent
  | memberAbsent
  | foreign
  | abandonApplied
  | resync
  | laggingMark
  | straggle
  | inputLost
  | inputLive
  | shapeFault
  | repairFailed
  deriving DecidableEq, Repr

/-- The 22 counters, in response order (R165). -/
inductive Counter
  | checkFailures
  | misplacedBursts
  | readbackFaults
  | commitsTaken
  | abandonsTaken
  | swaps
  | straggles
  | resyncs
  | piecesClaimed
  | stale
  | early
  | duplicate
  | overflow
  | rowsWithheld
  | inputFramesSkipped
  | fillPieces
  | requestsSent
  | repairSegmentsSent
  | requestsRefused
  | statusesDropped
  | orphanStatuses
  | requestsIgnored
  deriving DecidableEq, Repr

/-! ## Configuration -/

/-- One entry of the stream table (R2). `formatCode` is the two format bits as the image holds them: an entry whose valid flag
is clear may hold any. -/
structure StreamEntry where
  valid : Bool
  formatCode : Nat
  publisher : Nat
  x0 : Nat
  y0 : Nat
  width : Nat
  height : Nat
  deriving DecidableEq, Repr

/-- The fields of the configuration image (R174). `positionMap` holds the 96 map bytes: 0 to 15 a stream id, 255 NONE. -/
structure Image where
  stationNumber : Nat
  sourceRole : Bool
  sinkRole : Bool
  roundPeriod : Nat
  absenceLimit : Nat
  deadline : Nat
  silenceLimit : Nat
  panelWidth : Nat
  panelHeight : Nat
  swapAxes : Bool
  reverseRows : Bool
  reverseColumns : Bool
  tileX : Nat
  tileY : Nat
  background : Pixel
  scanPeriod : Nat
  streams : List StreamEntry
  positionMap : List Nat
  deriving DecidableEq, Repr

/-- What the station's blocks find while the loader holds no image (R45): no role, no stream, every number 0. -/
def Image.blank : Image :=
  { stationNumber := 0, sourceRole := false, sinkRole := false, roundPeriod := 0, absenceLimit := 0, deadline := 0,
    silenceLimit := 0, panelWidth := 0, panelHeight := 0, swapAxes := false, reverseRows := false, reverseColumns := false,
    tileX := 0, tileY := 0, background := 0, scanPeriod := 0, streams := [], positionMap := [] }

/-- An entry of a tile row's list in the coverage plan (R13). -/
structure Expected where
  stream : Nat
  index : Nat
  pieceFirst : Nat
  pieceLast : Nat
  placedFirst : Nat
  placedLast : Nat
  deriving DecidableEq, Repr

/-- What the loader holds after acceptance (R45). The plan has one list per tile row, and none for a station without the sink
role. -/
structure Accepted where
  image : Image
  digest : Digest
  plan : List (List Expected)
  deriving DecidableEq, Repr

/-- The configuration loader (R39, R45). Its fault code is the one the station state logic holds (R40, R46). -/
structure Loader where
  reading : Bool
  accepted : Option Accepted
  deriving DecidableEq, Repr

/-- The station state logic (R46, R48). -/
structure Station where
  state : StationState
  fault : FaultCode
  silentExpiries : Nat
  joinCount : Nat
  deriving DecidableEq, Repr

/-! ## Bursts -/

/-- A piece as a SEGMENT, the publish queue and the landing queue carry it (R5, R90). The payload is in the stream's format and
empty for a fill piece (R6). -/
structure Piece where
  stream : Nat
  frame : Frame
  row : Nat
  index : Nat
  count : Nat
  format : Format
  fill : Bool
  payload : List Byte
  deriving DecidableEq, Repr

/-- Requester and repair tag of a repair SEGMENT (R172). -/
structure RepairMark where
  requester : Nat
  tag : Nat
  deriving DecidableEq, Repr

/-- The offer a source declares in its STATE (R95). -/
structure Offer where
  stream : Nat
  frame : Option Frame
  published : Bool
  deriving DecidableEq, Repr

/-- The fields of a MARK (R171). -/
structure MarkFields where
  round : RoundNo
  settled : Frame
  kind : SettleKind
  deriving DecidableEq, Repr

/-- The fields of a STATE (R171). -/
structure StateFields where
  digest : Digest
  source : Bool
  sink : Bool
  settled : Frame
  kind : SettleKind
  ready : Option Frame
  shown : Option Frame
  offer : Option Offer
  deriving DecidableEq, Repr

/-- The fields of a SEGMENT (R172); `repair` is present when the repair flag is set. -/
structure SegmentFields where
  piece : Piece
  repair : Option RepairMark
  deriving DecidableEq, Repr

/-- A row range of a REQUEST: first canvas row and count (R136). -/
structure RowRange where
  first : Nat
  count : Nat
  deriving DecidableEq, Repr

/-- The fields of a REQUEST (R172); its requester is the burst's sender. -/
structure RequestFields where
  tag : Nat
  stream : Nat
  frame : Frame
  firstColumn : Nat
  lastColumn : Nat
  ranges : List RowRange
  deriving DecidableEq, Repr

/-- The fields of a STATUS (R172); its responder is the burst's sender. -/
structure StatusFields where
  requester : Nat
  tag : Nat
  outcome : Outcome
  frame : Frame
  sent : Nat
  gone : Nat
  deriving DecidableEq, Repr

/-- The five burst kinds (section 2.9). -/
inductive Body
  | mark (m : MarkFields)
  | state (m : StateFields)
  | segment (m : SegmentFields)
  | request (m : RequestFields)
  | status (m : StatusFields)
  deriving DecidableEq, Repr

/-- A burst with its sender, the station number of its arbitration field (R170). -/
structure Burst where
  sender : Nat
  body : Body
  deriving DecidableEq, Repr

/-! ## Bus interface and round timer -/

/-- A burst being heard: whether its start opened the MARK position (or, unaligned, is a candidate for one), and whether its
start fell in a numbered position that already held one (R16, R17, R21). -/
structure Hearing where
  opensRound : Bool
  repeated : Bool
  deriving DecidableEq, Repr

/-- What the station sends, with its owner (R28, R30, R33). A MARK keeps what the settle unit composed and whether that is a
verdict (R65). -/
inductive SentItem
  | mark (m : MarkFields) (verdict : Bool)
  | state
  | fresh
  | repair
  | request (tag : Nat)
  | status
  deriving DecidableEq, Repr

/-- A burst the station drives: in a contested position or in one it owns (R25, R29, R30). -/
structure Driving where
  item : SentItem
  contested : Bool
  bytes : List Byte
  deriving DecidableEq, Repr

/-- The bus interface (R37). -/
structure Bus where
  position : Position
  positionHeld : Bool
  aligned : Bool
  hearing : Option Hearing
  driving : Option Driving
  markClaim : Bool
  consecutiveFaults : Nat
  collisions : Nat
  deriving DecidableEq, Repr

/-- The round timer (R18, R19). The mark timer is none when it is not running, and holds the value it was started with, in µs. -/
structure RoundTimer where
  number : RoundNo
  markTimer : Option Nat
  deriving DecidableEq, Repr

/-! ## Membership table and settle unit -/

/-- The latest STATE of a station (R54). -/
structure Record where
  settled : Frame
  kind : SettleKind
  ready : Option Frame
  shown : Option Frame
  offer : Option Offer
  deriving DecidableEq, Repr

/-- A membership entry (R54). -/
structure MemberEntry where
  status : MemberStatus
  source : Bool
  sink : Bool
  rounds : Nat
  eligible : Bool
  record : Option Record
  deriving DecidableEq, Repr

/-- A membership entry after reset (R54). -/
def MemberEntry.unheard : MemberEntry :=
  { status := .unheard, source := false, sink := false, rounds := 0, eligible := false, record := none }

/-- The settle unit (R60). -/
structure Settle where
  frame : Frame
  kind : SettleKind
  openAge : Nat
  lastMark : Option (Frame × SettleKind)
  deriving DecidableEq, Repr

/-! ## Source side -/

/-- The capture unit (R85, R87). -/
structure Capture where
  state : CaptureState
  rowCount : Nat
  disposition : Disposition
  shapeFaultPosted : Bool
  offer : Option Frame
  published : Bool
  input : InputState
  silence : Nat
  deriving DecidableEq, Repr

/-- An entry of the retain ring (R97). -/
structure RingEntry where
  row : Nat
  index : Nat
  count : Nat
  fill : Bool
  payload : List Byte
  deriving DecidableEq, Repr

/-- A request of the repair queue with its two counts (R151). -/
structure QueuedRequest where
  requester : Nat
  fields : RequestFields
  sent : Nat
  gone : Nat
  deriving DecidableEq, Repr

/-- A piece of the request in service: range (0 to 3), canvas row, piece index (R156). -/
structure Cursor where
  range : Nat
  row : Nat
  index : Nat
  deriving DecidableEq, Repr

/-- The repair responder (R151). -/
structure Responder where
  queue : List QueuedRequest
  cursor : Option Cursor
  slot : Option SegmentFields
  replies : List StatusFields
  deriving DecidableEq, Repr

/-! ## Sink side -/

/-- An entry of a coverage-table list with its claimed flag (R109). -/
structure CoverageEntry where
  expected : Expected
  claimed : Bool
  deriving DecidableEq, Repr

/-- The coverage table (R109): one list per tile row, and per stream id the outstanding count and the expected total (0 for a
stream that does not contribute). -/
structure Coverage where
  rows : List (List CoverageEntry)
  outstanding : List Nat
  totals : List Nat
  openFor : Option Frame
  deriving DecidableEq, Repr

/-- What a pixel that a bank does not list reads as: unknown since the power-on or reset numbered `seq` (log entry 3), or the
colour of the last clear (R120, R123). -/
inductive BankFill
  | unknown (seq : Nat)
  | colour (c : Pixel)
  deriving DecidableEq, Repr

/-- A bank: what its unlisted pixels read as, and the listed pixels by address, addresses rising (`Bank.wf`). -/
structure Bank where
  fill : BankFill
  cells : List (Nat × Pixel)
  deriving DecidableEq, Repr

/-- Bank control with its two banks (R120). -/
structure BankControl where
  bank0 : Bank
  bank1 : Bank
  front : BankName
  backFrame : Option Frame
  clear : ClearState
  swapPending : Option Frame
  shown : Option Frame
  deriving DecidableEq, Repr

/-- The panel scan (R131). The scan-period timer is none when stopped, and holds its value in 0.1 ms steps. -/
structure PanelScan where
  timer : Option Nat
  position : ScanPosition
  poblHigh : Bool
  deriving DecidableEq, Repr

/-- An entry of the repair list (R136). -/
structure RepairEntry where
  tag : Nat
  stream : Nat
  frame : Frame
  firstColumn : Nat
  lastColumn : Nat
  ranges : List RowRange
  state : EntryState
  attempts : Nat
  wait : Nat
  backoff : Nat
  code : Option ConditionCode
  deriving DecidableEq, Repr

/-- The repair requester (R135). The marks are one flag per stream id; those of streams that do not contribute stay clear. -/
structure Requester where
  entries : List RepairEntry
  published : List Bool
  unrepairable : List Bool
  lastTag : Nat
  deriving DecidableEq, Repr

/-! ## Status port -/

/-- An entry of the event record (R166). -/
structure Event where
  kind : EventKind
  round : RoundNo
  frame : Frame
  detail : Byte
  deriving DecidableEq, Repr

/-- A transaction whose command has been taken (R163): the snapshot response, what SPDO gives beyond it, and, for READ EVENT,
whether an entry was reported and with which dropped-event count (R167). -/
structure Transaction where
  response : List Byte
  beyond : Byte
  reported : Option (Bool × Nat)
  deriving DecidableEq, Repr

/-- The status port (R165, R166, R169). `counters` holds the 22 counters in response order. -/
structure StatusPort where
  events : List Event
  dropped : Nat
  counters : List Nat
  transaction : Option Transaction
  deriving DecidableEq, Repr

/-! ## The station -/

/-- Everything the manual gives the station, the free-value counter of the model (log entry 18), and the queue of the commands
that wait, oldest first. -/
structure State where
  loader : Loader
  station : Station
  bus : Bus
  roundTimer : RoundTimer
  members : List MemberEntry
  settle : Settle
  capture : Capture
  ring : List RingEntry
  publishQueue : List Piece
  coverage : Coverage
  landing : List Piece
  engine : Engine
  banks : BankControl
  scan : PanelScan
  requester : Requester
  responder : Responder
  port : StatusPort
  resetAsserted : Bool
  freeSeq : Nat
  pending : List Instr
  deriving DecidableEq, Repr

/-- Why the station stops with a fault: never. The part has no stop; what it calls a fault is the station state ISOLATED with a
fault code (R46), which is a state here. No constructor: that is safe, since nothing is claimed to stop. -/
inductive Fault
  deriving DecidableEq, Repr

/-- Why a command has no meaning. -/
inductive Refusal
  /-- Raised by an arm of `exec` whose command the model has not reached. No arm raises it now. Safe: a stop proves nothing. -/
  | notModelled (mnemonic : String)
  deriving DecidableEq, Repr

/-! ## Reset -/

/-- The loader after reset: the read runs (R39, R45). -/
def Loader.reset : Loader := { reading := true, accepted := none }

/-- R46; the LISTEN counts are 0 (log entry 7). -/
def Station.reset : Station := { state := .loading, fault := .noFault, silentExpiries := 0, joinCount := 0 }

/-- R37. -/
def Bus.reset : Bus :=
  { position := .tail, positionHeld := false, aligned := false, hearing := none, driving := none, markClaim := false,
    consecutiveFaults := 0, collisions := 0 }

/-- R18, R37. -/
def RoundTimer.reset : RoundTimer := { number := 0, markTimer := none }

/-- R54. -/
def membersReset : List MemberEntry := List.replicate 32 MemberEntry.unheard

/-- R60. -/
def Settle.reset : Settle := { frame := 0, kind := .start, openAge := 0, lastMark := none }

/-- R85, R87. -/
def Capture.reset : Capture :=
  { state := .dormant, rowCount := 0, disposition := .skipped, shapeFaultPosted := false, offer := none, published := false,
    input := .lost, silence := 0 }

/-- R109: the table holds nothing. -/
def Coverage.nothing : Coverage :=
  { rows := [], outstanding := List.replicate 16 0, totals := List.replicate 16 0, openFor := none }

/-- R120: the contents of both banks are not known (log entry 3). -/
def BankControl.reset (seq : Nat) : BankControl :=
  { bank0 := { fill := .unknown seq, cells := [] }, bank1 := { fill := .unknown (seq + 1), cells := [] }, front := .bank0,
    backFrame := none, clear := .idle, swapPending := none, shown := none }

/-- R131. -/
def PanelScan.reset : PanelScan := { timer := none, position := .idle, poblHigh := true }

/-- R135. -/
def Requester.reset : Requester :=
  { entries := [], published := List.replicate 16 false, unrepairable := List.replicate 16 false, lastTag := 7 }

/-- R151. -/
def Responder.reset : Responder := { queue := [], cursor := none, slot := none, replies := [] }

/-- R165, R166, R169. -/
def StatusPort.reset : StatusPort :=
  { events := [], dropped := 0, counters := List.replicate 22 0, transaction := none }

/-- The station's state after the reset that draws the free values `seq` and `seq + 1`, every block at its reset values. -/
def State.afterReset (seq : Nat) (asserted : Bool) (pending : List Instr) : State :=
  { loader := .reset, station := .reset, bus := .reset, roundTimer := .reset, members := membersReset, settle := .reset,
    capture := .reset, ring := [], publishQueue := [], coverage := .nothing, landing := [], engine := .idle,
    banks := .reset seq, scan := .reset, requester := .reset, responder := .reset, port := .reset,
    resetAsserted := asserted, freeSeq := seq + 2, pending := pending }

/-- The station right after reset: RESET has been released, no command waits (R46; log entry 7). -/
def State.reset : State := .afterReset 0 false []

/-! ## Named updates, one per field -/

/-- The state with another `loader`. -/
def State.setLoader (s : State) (x : Loader) : State := { s with loader := x }
/-- The state with another `station`. -/
def State.setStation (s : State) (x : Station) : State := { s with station := x }
/-- The state with another `bus`. -/
def State.setBus (s : State) (x : Bus) : State := { s with bus := x }
/-- The state with another `roundTimer`. -/
def State.setRoundTimer (s : State) (x : RoundTimer) : State := { s with roundTimer := x }
/-- The state with another `members`. -/
def State.setMembers (s : State) (x : List MemberEntry) : State := { s with members := x }
/-- The state with another `settle`. -/
def State.setSettle (s : State) (x : Settle) : State := { s with settle := x }
/-- The state with another `capture`. -/
def State.setCapture (s : State) (x : Capture) : State := { s with capture := x }
/-- The state with another `ring`. -/
def State.setRing (s : State) (x : List RingEntry) : State := { s with ring := x }
/-- The state with another `publishQueue`. -/
def State.setPublishQueue (s : State) (x : List Piece) : State := { s with publishQueue := x }
/-- The state with another `coverage`. -/
def State.setCoverage (s : State) (x : Coverage) : State := { s with coverage := x }
/-- The state with another `landing`. -/
def State.setLanding (s : State) (x : List Piece) : State := { s with landing := x }
/-- The state with another `engine`. -/
def State.setEngine (s : State) (x : Engine) : State := { s with engine := x }
/-- The state with another `banks`. -/
def State.setBanks (s : State) (x : BankControl) : State := { s with banks := x }
/-- The state with another `scan`. -/
def State.setScan (s : State) (x : PanelScan) : State := { s with scan := x }
/-- The state with another `requester`. -/
def State.setRequester (s : State) (x : Requester) : State := { s with requester := x }
/-- The state with another `responder`. -/
def State.setResponder (s : State) (x : Responder) : State := { s with responder := x }
/-- The state with another `port`. -/
def State.setPort (s : State) (x : StatusPort) : State := { s with port := x }
/-- The state with another `resetAsserted`. -/
def State.setResetAsserted (s : State) (x : Bool) : State := { s with resetAsserted := x }
/-- The state with another `freeSeq`. -/
def State.setFreeSeq (s : State) (x : Nat) : State := { s with freeSeq := x }
/-- The state with another `pending`. -/
def State.setPending (s : State) (x : List Instr) : State := { s with pending := x }

end Sys2Proof.Machine
end

