-- ==== Sys2Proof/Machine/Ops.lean ====
section
/-! DEFINITION. The shared operations: frame arithmetic, the status port's postings and counts, the banks, and what every
block asks of the station as a whole. -/

namespace Sys2Proof.Machine

/-! ## Frames (00_scope, "Frame numbers"; R62) -/

/-- The forward difference from `a` to `b`, modulo 65536. -/
def forward (a b : Frame) : Nat := (b - a).toNat

/-- How a frame lies to another (R62); 32768 away is taken as behind. -/
inductive FrameOrder
  | same
  | oneAhead
  | farAhead
  | behind
  deriving DecidableEq, Repr

/-- The outcome of comparing `x` with the settled frame `s` (R62). -/
def compareFrame (s x : Frame) : FrameOrder :=
  match forward s x with
  | 0 => .same
  | 1 => .oneAhead
  | n => if n ≤ 32767 then .farAhead else .behind

/-- Frame `a` is ahead of frame `b` (00_scope, "Frame numbers"). -/
def isAhead (a b : Frame) : Bool := 1 ≤ forward b a && forward b a ≤ 32767

/-- The open frame, one after the settled frame (R60). -/
def State.openFrame (s : State) : Frame := s.settle.frame + 1

/-! ## What the blocks ask of the station -/

/-- The configuration, as the loader holds it (R45). -/
def State.image (s : State) : Image := (s.loader.accepted.map (·.image)).getD Image.blank

/-- The wall digest (R44). -/
def State.digest (s : State) : Digest := (s.loader.accepted.map (·.digest)).getD 0

/-- The coverage plan (R13). -/
def State.plan (s : State) : List (List Expected) := (s.loader.accepted.map (·.plan)).getD []

/-- The station is a MEMBER (R46). -/
def State.isMember (s : State) : Bool := s.station.state == .member

/-- The station is in LISTEN (R46). -/
def State.isListen (s : State) : Bool := s.station.state == .listen

/-- The bus interface hears the medium: in LISTEN and MEMBER (R24). -/
def State.hears (s : State) : Bool := s.isListen || s.isMember

/-- A MEMBER, or aligned in LISTEN: round starts are taken, bursts judged and counted (R22, R57). -/
def State.onTheBus (s : State) : Bool := s.isMember || (s.isListen && s.bus.aligned)

/-- A MEMBER with the sink role (R80). -/
def State.actsAsSink (s : State) : Bool := s.isMember && s.image.sinkRole

/-- A MEMBER with the source role (R80). -/
def State.actsAsSource (s : State) : Bool := s.isMember && s.image.sourceRole

/-- The entry of station `k`; every number has one (R54). -/
def State.member (s : State) (k : Nat) : MemberEntry := s.members.getD k MemberEntry.unheard

/-- Station `k` is present on the wall (R54). -/
def State.present (s : State) (k : Nat) : Bool := (s.member k).status == .present

/-- The entry of station `k` replaced. -/
def State.setMember (s : State) (k : Nat) (e : MemberEntry) : State := s.setMembers (s.members.set k e)

/-! ## Counts and events (R165, R166) -/

/-- A count raised by `n`, saturating at `limit`. -/
def saturate (limit count n : Nat) : Nat := min limit (count + n)

/-- The counter's place in the response (R165). -/
def Counter.place : Counter → Nat
  | .checkFailures => 0
  | .misplacedBursts => 1
  | .readbackFaults => 2
  | .commitsTaken => 3
  | .abandonsTaken => 4
  | .swaps => 5
  | .straggles => 6
  | .resyncs => 7
  | .piecesClaimed => 8
  | .stale => 9
  | .early => 10
  | .duplicate => 11
  | .overflow => 12
  | .rowsWithheld => 13
  | .inputFramesSkipped => 14
  | .fillPieces => 15
  | .requestsSent => 16
  | .repairSegmentsSent => 17
  | .requestsRefused => 18
  | .statusesDropped => 19
  | .orphanStatuses => 20
  | .requestsIgnored => 21

/-- The value of a counter. -/
def State.counter (s : State) (c : Counter) : Nat := s.port.counters.getD c.place 0

/-- A counter raised by `n`, saturating at 65535 (R165). -/
def raise (c : Counter) (n : Nat) (s : State) : State :=
  s.setPort { s.port with counters := s.port.counters.set c.place (saturate Config.count16 (s.counter c) n) }

/-- An event posted: appended as the newest, or dropped and counted when the record is full; it is stamped with the round
number the round timer holds (R166). -/
def post (kind : EventKind) (frame : Frame) (detail : Byte) (s : State) : State :=
  if s.port.events.length < Config.eventRecordSize then
    s.setPort { s.port with
      events := s.port.events ++ [{ kind := kind, round := s.roundTimer.number, frame := frame, detail := detail }] }
  else s.setPort { s.port with dropped := saturate Config.count8 s.port.dropped 1 }

/-- ALERT is driven low exactly while the record holds an event (R168). -/
def State.alertLow (s : State) : Bool := !s.port.events.isEmpty

/-- The fault code as a byte, also the ISOLATED detail (R175). -/
def FaultCode.code : FaultCode → Byte
  | .noFault => 0x00
  | .imageCheck => 0x01
  | .range => 0x02
  | .tileOutsideCanvas => 0x03
  | .streamOutsideCanvas => 0x04
  | .streamOverlap => 0x05
  | .publisherConflict => 0x06
  | .positionMap => 0x07
  | .planOverflow => 0x08
  | .duplicateNumber => 0x09
  | .mediumFault => 0x0A

/-! ## Free values -/

/-- The next free value's number is used up. -/
def drawFree (s : State) : State := s.setFreeSeq (s.freeSeq + 1)

/-! ## Orders (log entry 2) -/

/-- A list without the later occurrences of an item. -/
def firstOnly {α : Type} [DecidableEq α] : List α → List α
  | [] => []
  | a :: l => a :: (firstOnly l).filter (· ≠ a)

/-- `named`, each item once, then those of `all` that it does not name. -/
def completeOrder {α : Type} [DecidableEq α] (named all : List α) : List α :=
  firstOnly named ++ all.filter (fun a => !named.contains a)

/-- The arrivals of a round start in the order the command gives. -/
def roundOrder (o : Orders) : List RoundArrival :=
  completeOrder o.round [.number, .ageing, .silence, .waits, .settle]

/-- The arrivals of a STATE in the order the command gives. -/
def stateOrder (o : Orders) : List StateArrival :=
  completeOrder o.state [.record, .catchUp, .published]

/-! ## Banks (R120): pixel stores addressed y × PW + x -/

/-- What pixel `a` of a bank holds; unknown contents are a free value (log entry 3). -/
def BankFill.read (f : BankFill) (a : Nat) : Pixel :=
  match f with
  | .unknown seq => Config.powerOnPixel seq a
  | .colour c => c

/-- The listed pixel at `a`, else `d`. -/
def readCells (d : Pixel) (a : Nat) : List (Nat × Pixel) → Pixel
  | [] => d
  | (b, v) :: l => if a = b then v else readCells d a l

/-- What pixel `a` of a bank holds. -/
def Bank.read (b : Bank) (a : Nat) : Pixel := readCells (b.fill.read a) a b.cells

/-- The cells with pixel `a` written `v`; nothing is listed for it when `keep` is false. -/
def writeCells (keep : Bool) (a : Nat) (v : Pixel) : List (Nat × Pixel) → List (Nat × Pixel)
  | [] => if keep then [(a, v)] else []
  | (b, w) :: l =>
    if a < b then (if keep then (a, v) :: (b, w) :: l else (b, w) :: l)
    else if a = b then (if keep then (a, v) :: l else l)
    else (b, w) :: writeCells keep a v l

/-- A pixel written; a value equal to the colour of the last clear lists nothing. -/
def Bank.write (b : Bank) (a : Nat) (v : Pixel) : Bank :=
  { b with cells := writeCells (b.fill != .colour v) a v b.cells }

/-- Pixels written one after another. -/
def Bank.writeAll (b : Bank) (l : List (Nat × Pixel)) : Bank := l.foldl (fun b p => b.write p.1 p.2) b

/-- A bank every pixel of which holds `c`: what a clear leaves (R121, R123). -/
def Bank.cleared (c : Pixel) : Bank := { fill := .colour c, cells := [] }

/-- Addresses strictly rising, all above `low` when there is one. -/
def risingFrom (low : Option Nat) : List (Nat × Pixel) → Bool
  | [] => true
  | (a, _) :: l => (match low with | none => true | some k => k < a) && risingFrom (some a) l

/-- The canonical form: addresses strictly rising, and no pixel listed that holds what an unlisted one reads as. -/
def Bank.wf (b : Bank) : Bool :=
  risingFrom none b.cells && b.cells.all (fun p => b.fill != .colour p.2)

/-- The bank that is not the front bank (R120). -/
def BankControl.back (c : BankControl) : Bank :=
  match c.front with
  | .bank0 => c.bank1
  | .bank1 => c.bank0

/-- The bank the panel scan shows (R120). -/
def BankControl.frontBank (c : BankControl) : Bank :=
  match c.front with
  | .bank0 => c.bank0
  | .bank1 => c.bank1

/-- The back bank replaced. -/
def BankControl.setBack (c : BankControl) (b : Bank) : BankControl :=
  match c.front with
  | .bank0 => { c with bank1 := b }
  | .bank1 => { c with bank0 := b }

/-- The two banks exchange roles (R132). -/
def BankName.other : BankName → BankName
  | .bank0 => .bank1
  | .bank1 => .bank0

end Sys2Proof.Machine
end

