-- ==== Sys2Proof/Machine/Geometry.lean ====
section
/-! DEFINITION. Canvas, streams, pieces, the tile and the coverage plan (01_canvas_streams_and_pieces.md), and the orientation
mapping (R118). -/

namespace Sys2Proof.Machine

/-- A canvas rectangle (R1). -/
structure Rect where
  left : Nat
  top : Nat
  width : Nat
  height : Nat
  deriving DecidableEq, Repr

/-- The rectangle lies inside the canvas (R1). -/
def Rect.insideCanvas (r : Rect) : Bool :=
  r.left + r.width ≤ Config.canvasSize && r.top + r.height ≤ Config.canvasSize

/-- Two rectangles share a column and share a row (R1). -/
def Rect.intersects (a b : Rect) : Bool :=
  a.left < b.left + b.width && b.left < a.left + a.width && a.top < b.top + b.height && b.top < a.top + a.height

/-- The rectangle covers canvas row `y` (R1). -/
def Rect.coversRow (r : Rect) (y : Nat) : Bool := r.top ≤ y && y < r.top + r.height

/-! ## Streams and pieces -/

/-- An entry that names no stream (R2). -/
def StreamEntry.unused : StreamEntry :=
  { valid := false, formatCode := 0, publisher := 0, x0 := 0, y0 := 0, width := 0, height := 0 }

/-- The stream's rectangle (R2). -/
def StreamEntry.rect (e : StreamEntry) : Rect := { left := e.x0, top := e.y0, width := e.width, height := e.height }

/-- The stream's pixel format (R2, R174). -/
def StreamEntry.format (e : StreamEntry) : Format := if e.formatCode = 1 then .narrow else .wide

/-- Pieces of a row of width `w` (R4). -/
def pieceCount (w : Nat) : Nat := (w + 255) / Config.pieceWidth

/-- Pieces per row of the stream (R4). -/
def StreamEntry.pieces (e : StreamEntry) : Nat := pieceCount e.width

/-- First canvas column of piece `i` (R4). -/
def StreamEntry.pieceFirst (e : StreamEntry) (i : Nat) : Nat := e.x0 + Config.pieceWidth * i

/-- Last canvas column of piece `i` (R4). -/
def StreamEntry.pieceLast (e : StreamEntry) (i : Nat) : Nat :=
  min (e.x0 + Config.pieceWidth * i + 255) (e.x0 + e.width - 1)

/-- Pixels of piece `i` (R4). -/
def StreamEntry.piecePixels (e : StreamEntry) (i : Nat) : Nat := e.pieceLast i + 1 - e.pieceFirst i

/-- The piece index of canvas column `c` (R4). -/
def StreamEntry.indexOf (e : StreamEntry) (c : Nat) : Nat := (c - e.x0) / Config.pieceWidth

/-- Entry `k` of the stream table (R2). -/
def Image.stream (img : Image) (k : Nat) : StreamEntry := img.streams.getD k .unused

/-- A piece identity is well-formed (R5). -/
def Image.wellFormedIdentity (img : Image) (stream row index : Nat) : Bool :=
  let e := img.stream stream
  e.valid && e.rect.coversRow row && index < e.pieces

/-- The ids of the stream table (R2). -/
def streamIds : List Nat := [0, 1, 2, 3, 4, 5, 6, 7, 8, 9, 10, 11, 12, 13, 14, 15]

/-- The stream this station publishes, if it has the source role (R2, R42). -/
def Image.ownStream (img : Image) : Option Nat :=
  if img.sourceRole then
    streamIds.find? (fun k => (img.stream k).valid && (img.stream k).publisher == img.stationNumber)
  else none

/-- The stream that owns stream position `j`, or none (R15, R174). -/
def Image.mapEntry (img : Image) (j : Nat) : Option Nat :=
  let b := img.positionMap.getD j 255
  if b ≤ 15 then some b else none

/-! ## The tile (R10) -/

/-- TW. -/
def Image.tileWidth (img : Image) : Nat := if img.swapAxes then img.panelHeight else img.panelWidth

/-- TH. -/
def Image.tileHeight (img : Image) : Nat := if img.swapAxes then img.panelWidth else img.panelHeight

/-- The tile's rectangle. -/
def Image.tile (img : Image) : Rect :=
  { left := img.tileX, top := img.tileY, width := img.tileWidth, height := img.tileHeight }

/-- Stream `k` contributes to the tile (R12). -/
def Image.contributes (img : Image) (k : Nat) : Bool :=
  (img.stream k).valid && (img.stream k).rect.intersects img.tile

/-- The contributing streams in ascending id (R12). -/
def Image.contributing (img : Image) : List Nat := streamIds.filter img.contributes

/-- First column of the intersection of stream and tile (R12). -/
def Image.firstShared (img : Image) (k : Nat) : Nat := max (img.stream k).x0 img.tileX

/-- Last column of the intersection of stream and tile (R12). -/
def Image.lastShared (img : Image) (k : Nat) : Nat :=
  min ((img.stream k).x0 + (img.stream k).width - 1) (img.tileX + img.tileWidth - 1)

/-! ## The coverage plan (R13) -/

/-- The numbers `a` to `b`, both included. -/
def span (a b : Nat) : List Nat := (List.range (b + 1 - a)).map (a + ·)

/-- The plan's entry for piece `i` of stream `k`. -/
def Image.expectedPiece (img : Image) (k i : Nat) : Expected :=
  let e := img.stream k
  { stream := k, index := i, pieceFirst := e.pieceFirst i, pieceLast := e.pieceLast i,
    placedFirst := max (e.pieceFirst i) img.tileX,
    placedLast := min (e.pieceLast i) (img.tileX + img.tileWidth - 1) }

/-- The expected pieces stream `k` adds to canvas row `y`. -/
def Image.expectedOf (img : Image) (y k : Nat) : List Expected :=
  let e := img.stream k
  if img.contributes k && e.rect.coversRow y then
    (span (e.indexOf (img.firstShared k)) (e.indexOf (img.lastShared k))).map (img.expectedPiece k)
  else []

/-- An entry put into a list kept in ascending order of the placed span's first column. -/
def insertExpected (e : Expected) : List Expected → List Expected
  | [] => [e]
  | f :: l => if e.placedFirst ≤ f.placedFirst then e :: f :: l else f :: insertExpected e l

/-- The list of canvas row `y`, in ascending order of the placed span's first column. -/
def Image.expectedRow (img : Image) (y : Nat) : List Expected :=
  (streamIds.flatMap (img.expectedOf y)).foldr insertExpected []

/-- The plan: one list for each tile row. -/
def Image.coveragePlan (img : Image) : List (List Expected) :=
  (List.range img.tileHeight).map (fun v => img.expectedRow (img.tileY + v))

/-! ## The orientation mapping (R118) -/

/-- Tile offsets to panel coordinates. -/
def Image.panelPosition (img : Image) (u v : Nat) : Nat × Nat :=
  let x' := if img.swapAxes then v else u
  let y' := if img.swapAxes then u else v
  (if img.reverseColumns then img.panelWidth - 1 - x' else x',
   if img.reverseRows then img.panelHeight - 1 - y' else y')

/-- The address of panel pixel (x, y) in a bank. -/
def Image.bankAddress (img : Image) (x y : Nat) : Nat := y * img.panelWidth + x

/-- Pixels of the panel. -/
def Image.panelPixels (img : Image) : Nat := img.panelWidth * img.panelHeight

end Sys2Proof.Machine
end

