-- ==== Sys2Proof/Machine/Operands.lean ====
section
/-! DEFINITION. The forms a command's bytes take: the check word, pixels and payloads, the five bursts with their decoding and
composing, and the configuration image (11_burst_configuration_and_status_formats.md). Multi-byte numbers stand most
significant byte first. -/

namespace Sys2Proof.Machine

/-! ## Numbers in bytes -/

/-- Byte `i`, 0 past the end (log entry 20). -/
def byteAt (bs : List Byte) (i : Nat) : Nat := (bs.getD i 0).toNat

/-- The two-byte number at `i`. -/
def pairAt (bs : List Byte) (i : Nat) : Nat := byteAt bs i * 256 + byteAt bs (i + 1)

/-- The canvas coordinate at `i`: two bytes whose top four bits are shown as 0 and not read (log entry 11). -/
def coordinateAt (bs : List Byte) (i : Nat) : Nat := pairAt bs i % 4096

/-- The frame number at `i`. -/
def frameAt (bs : List Byte) (i : Nat) : Frame := BitVec.ofNat 16 (pairAt bs i)

/-- Bit `k` of byte `i`. -/
def bitAt (bs : List Byte) (i k : Nat) : Bool := (bs.getD i 0).getLsbD k

/-- A number as one byte. -/
def toByte (n : Nat) : Byte := BitVec.ofNat 8 n

/-- A number as two bytes. -/
def toPair (n : Nat) : List Byte := [toByte (n / 256), toByte n]

/-- A flag as 0 or 1. -/
def bitOf (b : Bool) : Nat := if b then 1 else 0

/-- A 32-bit word as four bytes. -/
def toQuad (w : BitVec 32) : List Byte :=
  [toByte (w.toNat / 16777216), toByte (w.toNat / 65536), toByte (w.toNat / 256), toByte w.toNat]

/-! ## The check word (R170) -/

/-- The check register after one bit. -/
def checkBit (r : BitVec 32) (b : Bool) : BitVec 32 :=
  if r.msb != b then (r <<< 1) ^^^ 0x04C11DB7#32 else r <<< 1

/-- The check register after the eight bits of a byte, bit 7 first. -/
def checkByte (r : BitVec 32) (b : Byte) : BitVec 32 :=
  [7, 6, 5, 4, 3, 2, 1, 0].foldl (fun r k => checkBit r (b.getLsbD k)) r

/-- The check register, as a number, after all bytes. The match on the number changes nothing: it lets Lean's kernel evaluate
the register byte by byte. -/
def checkRegister : List Byte → Nat → Nat
  | [], 0 => 0
  | [], n + 1 => n + 1
  | b :: bs, 0 => checkRegister bs (checkByte 0#32 b).toNat
  | b :: bs, n + 1 => checkRegister bs (checkByte (BitVec.ofNat 32 (n + 1)) b).toNat

/-- The check word over the bytes before it: register preset to all ones, complemented at the end. -/
def checkWord (bs : List Byte) : BitVec 32 := ~~~ BitVec.ofNat 32 (checkRegister bs 0xFFFFFFFF)

/-- The bytes before the last four. -/
def beforeCheck (bs : List Byte) : List Byte := bs.take (bs.length - 4)

/-- The last four bytes are the check word of those before them; fewer than four bytes hold none. -/
def checkAgrees (bs : List Byte) : Bool :=
  4 ≤ bs.length && bs.drop (bs.length - 4) == toQuad (checkWord (beforeCheck bs))

/-- Bytes closed by their check word. -/
def closed (bs : List Byte) : List Byte := bs ++ toQuad (checkWord bs)

/-! ## Pixels and payloads (R7 to R9, R172) -/

/-- The three colours of a pixel: 5-6-5 in a pixel, 4-4-4 in NARROW. -/
structure Colours where
  red : Nat
  green : Nat
  blue : Nat
  deriving DecidableEq, Repr

/-- The colours of a 5-6-5 pixel. -/
def coloursOf (p : Pixel) : Colours :=
  { red := p.toNat / 2048, green := p.toNat / 32 % 64, blue := p.toNat % 32 }

/-- The 5-6-5 pixel of three colours. -/
def pixelOf (c : Colours) : Pixel := BitVec.ofNat 16 (c.red * 2048 + c.green * 32 + c.blue)

/-- A captured pixel in NARROW: the top 4 bits of each colour (R8). -/
def narrowOf (p : Pixel) : Colours :=
  let c := coloursOf p
  { red := c.red / 2, green := c.green / 4, blue := c.blue / 2 }

/-- A NARROW pixel expanded to 5-6-5 (R9). -/
def expand (c : Colours) : Pixel :=
  pixelOf { red := 2 * c.red + c.red / 8, green := 4 * c.green + c.green / 4, blue := 2 * c.blue + c.blue / 8 }

/-- Bytes of a payload of `c` pixels (R7). -/
def payloadLength (f : Format) (c : Nat) : Nat :=
  match f with
  | .wide => 2 * c
  | .narrow => (3 * c + 1) / 2

/-- NARROW pixels packed in pairs (R172). -/
def packNarrow : List Colours → List Byte
  | [] => []
  | [p] => [toByte (p.red * 16 + p.green), toByte (p.blue * 16)]
  | p :: q :: l =>
    toByte (p.red * 16 + p.green) :: toByte (p.blue * 16 + q.red) :: toByte (q.green * 16 + q.blue) :: packNarrow l

/-- The NARROW pixels of packed bytes; the padding of an odd last pixel is not read (R7). -/
def unpackNarrow : List Byte → List Colours
  | a :: b :: c :: l =>
    { red := a.toNat / 16, green := a.toNat % 16, blue := b.toNat / 16 } ::
    { red := b.toNat % 16, green := c.toNat / 16, blue := c.toNat % 16 } :: unpackNarrow l
  | [a, b] => [{ red := a.toNat / 16, green := a.toNat % 16, blue := b.toNat / 16 }]
  | _ => []

/-- WIDE pixels as bytes. -/
def packWide (l : List Pixel) : List Byte := l.flatMap (fun p => toPair p.toNat)

/-- The WIDE pixels of bytes. -/
def unpackWide : List Byte → List Pixel
  | a :: b :: l => BitVec.ofNat 16 (a.toNat * 256 + b.toNat) :: unpackWide l
  | _ => []

/-- The payload of captured pixels in the stream's format (R8, R90). -/
def packPayload (f : Format) (l : List Pixel) : List Byte :=
  match f with
  | .wide => packWide l
  | .narrow => packNarrow (l.map narrowOf)

/-- The 5-6-5 values a placement writes for a piece, first pixel first (R116): the payload's, or background for a fill piece. -/
def Piece.pixels (p : Piece) (background : Pixel) : List Pixel :=
  if p.fill then List.replicate p.count background
  else match p.format with
    | .wide => unpackWide p.payload
    | .narrow => (unpackNarrow p.payload).map expand

/-! ## Codes -/

/-- The settle kind byte (R171). -/
def SettleKind.code : SettleKind → Byte
  | .start => 0x00
  | .commit => 0x01
  | .abandon => 0x02

/-- The settle kind a byte names. -/
def settleKindOf (b : Nat) : Option SettleKind :=
  match b with
  | 0 => some .start
  | 1 => some .commit
  | 2 => some .abandon
  | _ => none

/-- The outcome byte of a STATUS (R172). -/
def Outcome.code : Outcome → Byte
  | .delivered => 0x01
  | .partly => 0x02
  | .gone => 0x03
  | .refused => 0x04
  | .malformed => 0x05

/-- The outcome a byte names. -/
def outcomeOf (b : Nat) : Option Outcome :=
  match b with
  | 1 => some .delivered
  | 2 => some .partly
  | 3 => some .gone
  | 4 => some .refused
  | 5 => some .malformed
  | _ => none

/-- The format bit of a SEGMENT (R172). -/
def Format.code : Format → Nat
  | .wide => 0
  | .narrow => 1

/-- The class of a burst's arbitration field (R25). -/
def Body.classOf : Body → Nat
  | .mark _ => 0
  | .status _ => 1
  | .request _ => 2
  | .segment m => if m.repair.isSome then 3 else 5
  | .state _ => 4

/-- The kind code (R170). -/
def Body.kindCode : Body → Nat
  | .mark _ => 1
  | .state _ => 2
  | .segment _ => 3
  | .request _ => 4
  | .status _ => 5

/-! ## Composing a burst (R170 to R172) -/

/-- The offer's three bytes. -/
def encodeOffer (o : Offer) : List Byte :=
  toByte (bitOf o.frame.isNone * 128 + bitOf o.published * 64 + o.stream) :: toPair ((o.frame.getD 0).toNat)

/-- An optional frame number. -/
def encodeFrame? (f : Option Frame) : List Byte :=
  match f with
  | some x => toPair x.toNat
  | none => []

/-- A row range of a REQUEST. -/
def encodeRange (r : RowRange) : List Byte := toPair r.first ++ [toByte r.count]

/-- The bytes of a burst between its kind code and its check word. -/
def encodeBody : Body → List Byte
  | .mark m => toPair m.round.toNat ++ toPair m.settled.toNat ++ [m.kind.code]
  | .state m =>
    toPair m.digest.toNat ++
    [toByte (bitOf m.source * 128 + bitOf m.sink * 64 + bitOf m.ready.isSome * 32 + bitOf m.shown.isSome * 16 +
      bitOf m.offer.isSome * 8)] ++
    toPair m.settled.toNat ++ [m.kind.code] ++ encodeFrame? m.ready ++ encodeFrame? m.shown ++
    (match m.offer with | some o => encodeOffer o | none => [])
  | .segment m =>
    [toByte (m.piece.stream * 16 + m.piece.format.code * 8 + bitOf m.piece.fill * 4 + bitOf m.repair.isSome * 2)] ++
    toPair m.piece.frame.toNat ++ toPair m.piece.row ++ [toByte m.piece.index, toByte (m.piece.count - 1)] ++
    (match m.repair with | some r => [toByte (r.requester * 8 + r.tag)] | none => []) ++
    (if m.piece.fill then [] else m.piece.payload)
  | .request m =>
    [toByte (m.stream * 16 + m.tag), toByte m.ranges.length] ++ toPair m.frame.toNat ++ toPair m.firstColumn ++
    toPair m.lastColumn ++ m.ranges.flatMap encodeRange
  | .status m =>
    [toByte (m.requester * 8 + m.tag), m.outcome.code] ++ toPair m.frame.toNat ++ toPair m.sent ++ toPair m.gone

/-- A whole burst as it is sent. -/
def encodeBurst (b : Burst) : List Byte :=
  closed (toByte (b.body.classOf * 32 + b.sender) :: toByte b.body.kindCode :: encodeBody b.body)

/-! ## Reading a burst -/

/-- The class in the arbitration field (R25). -/
def classBits (bs : List Byte) : Nat := byteAt bs 0 / 32

/-- The sender in the arbitration field (R170). -/
def senderBits (bs : List Byte) : Nat := byteAt bs 0 % 32

/-- The kind code (R170). -/
def kindBits (bs : List Byte) : Nat := byteAt bs 1

/-- The stream id of a SEGMENT (R172). -/
def segmentStream (bs : List Byte) : Nat := byteAt bs 2 / 16

/-- The repair flag of a SEGMENT (R172). -/
def segmentRepair (bs : List Byte) : Bool := bitAt bs 2 1

/-- A MARK, when its length and settle kind are right (R173). -/
def decodeMark (bs : List Byte) : Option Body :=
  if bs.length = 11 then
    (settleKindOf (byteAt bs 6)).map (fun k => .mark { round := BitVec.ofNat 16 (pairAt bs 2), settled := frameAt bs 4, kind := k })
  else none

/-- The offer at byte `i`. -/
def decodeOffer (bs : List Byte) (i : Nat) : Offer :=
  { stream := byteAt bs i % 16,
    frame := if bitAt bs i 7 then none else some (frameAt bs (i + 1)),
    published := bitAt bs i 6 }

/-- A STATE, when its length, settle kind and presence bits are right (R173). -/
def decodeState (bs : List Byte) : Option Body :=
  let source := bitAt bs 4 7
  let sink := bitAt bs 4 6
  let ready := bitAt bs 4 5
  let shown := bitAt bs 4 4
  let offer := bitAt bs 4 3
  let shownAt := 8 + 2 * bitOf ready
  let offerAt := shownAt + 2 * bitOf shown
  if bs.length = offerAt + 3 * bitOf offer + 4 && (sink || (!ready && !shown)) && offer == source then
    (settleKindOf (byteAt bs 7)).map (fun k => .state
      { digest := BitVec.ofNat 16 (pairAt bs 2), source := source, sink := sink, settled := frameAt bs 5, kind := k,
        ready := if ready then some (frameAt bs 8) else none,
        shown := if shown then some (frameAt bs shownAt) else none,
        offer := if offer then some (decodeOffer bs offerAt) else none })
  else none

/-- A SEGMENT, when its length, identity, pixel count and format are right (R5, R173). -/
def decodeSegment (img : Image) (bs : List Byte) : Option Body :=
  let stream := segmentStream bs
  let e := img.stream stream
  let format : Format := if bitAt bs 2 3 then .narrow else .wide
  let fill := bitAt bs 2 2
  let repair := segmentRepair bs
  let row := coordinateAt bs 5
  let index := byteAt bs 7 % 16
  let count := byteAt bs 8 + 1
  let payloadAt := 9 + bitOf repair
  let length := if fill then 0 else payloadLength format count
  if bs.length = payloadAt + length + 4 && img.wellFormedIdentity stream row index && count == e.piecePixels index &&
      format == e.format then
    some (.segment
      { piece := { stream := stream, frame := frameAt bs 3, row := row, index := index, count := count, format := format,
                   fill := fill, payload := (bs.drop payloadAt).take length },
        repair := if repair then some { requester := byteAt bs 9 / 8, tag := byteAt bs 9 % 8 } else none })
  else none

/-- Range `i` of a REQUEST. -/
def decodeRange (bs : List Byte) (i : Nat) : RowRange :=
  { first := coordinateAt bs (10 + 3 * i), count := byteAt bs (12 + 3 * i) }

/-- A REQUEST, when its number of ranges is 1 to 4 and its length fits (R173). -/
def decodeRequest (bs : List Byte) : Option Body :=
  let k := byteAt bs 3
  if 1 ≤ k && k ≤ 4 && bs.length == 14 + 3 * k then
    some (.request
      { tag := byteAt bs 2 % 8, stream := byteAt bs 2 / 16, frame := frameAt bs 4, firstColumn := coordinateAt bs 6,
        lastColumn := coordinateAt bs 8, ranges := (List.range k).map (decodeRange bs) })
  else none

/-- A STATUS, when its length and outcome are right (R173). -/
def decodeStatus (bs : List Byte) : Option Body :=
  if bs.length = 14 then
    (outcomeOf (byteAt bs 3)).map (fun o => .status
      { requester := byteAt bs 2 / 8, tag := byteAt bs 2 % 8, outcome := o, frame := frameAt bs 4, sent := pairAt bs 6,
        gone := pairAt bs 8 })
  else none

/-- The fields of a burst; none when a field is malformed (R173) or the kind code is none of the five (R170). -/
def decodeBody (img : Image) (bs : List Byte) : Option Body :=
  match kindBits bs with
  | 1 => decodeMark bs
  | 2 => decodeState bs
  | 3 => decodeSegment img bs
  | 4 => decodeRequest bs
  | 5 => decodeStatus bs
  | _ => none

/-! ## The configuration image (R174) -/

/-- Byte `i` of the image; a location that gave nothing reads as FFh, as a memory that does not answer does (R39). -/
def imageByte (bs : List Byte) (i : Nat) : Nat := (bs.getD i 0xFF).toNat

/-- The two-byte number at byte `i` of the image. -/
def imagePair (bs : List Byte) (i : Nat) : Nat := imageByte bs i * 256 + imageByte bs (i + 1)

/-- The three-byte number at byte `i` of the image. -/
def imageTriple (bs : List Byte) (i : Nat) : Nat := imageByte bs i * 65536 + imagePair bs (i + 1)

/-- Entry `k` of the stream table. -/
def parseStream (bs : List Byte) (k : Nat) : StreamEntry :=
  let i := 21 + 7 * k
  { valid := imageByte bs i / 128 == 1, formatCode := imageByte bs i / 32 % 4, publisher := imageByte bs i % 32,
    x0 := imageTriple bs (i + 1) / 4096, y0 := imageTriple bs (i + 1) % 4096,
    width := imageTriple bs (i + 4) / 4096 + 1, height := imageTriple bs (i + 4) % 4096 + 1 }

/-- The fields of an image. TX and TY are read in all 16 bits, so that a number above 4095 is out of range (R41, R174), and not as
the chapter's opening has a canvas column or row read (log entry 11). -/
def parseImage (bs : List Byte) : Image :=
  { stationNumber := imageByte bs 1,
    sourceRole := imageByte bs 2 / 128 == 1,
    sinkRole := imageByte bs 2 / 64 % 2 == 1,
    roundPeriod := imagePair bs 3,
    absenceLimit := imageByte bs 5,
    deadline := imagePair bs 6,
    silenceLimit := imageByte bs 8,
    panelWidth := imagePair bs 9,
    panelHeight := imageByte bs 11,
    swapAxes := imageByte bs 12 / 4 % 2 == 1,
    reverseRows := imageByte bs 12 / 2 % 2 == 1,
    reverseColumns := imageByte bs 12 % 2 == 1,
    tileX := imagePair bs 13,
    tileY := imagePair bs 15,
    background := BitVec.ofNat 16 (imagePair bs 17),
    scanPeriod := imagePair bs 19,
    streams := streamIds.map (parseStream bs),
    positionMap := (List.range 96).map (fun j => imageByte bs (133 + j)) }

/-- The bytes of the image from `i`, `n` of them. -/
def imageSlice (bs : List Byte) (i n : Nat) : List Byte := (List.range n).map (fun k => bs.getD (i + k) 0xFF)

/-- The string the wall digest is formed over: the wall-wide bytes, an entry whose valid bit is clear taken as zeros. -/
def digestString (bs : List Byte) : List Byte :=
  imageSlice bs 3 5 ++
  streamIds.flatMap (fun k =>
    if (parseStream bs k).valid then imageSlice bs (21 + 7 * k) 7 else List.replicate 7 0) ++
  imageSlice bs 133 96

/-- The wall digest (R44, R174): the upper half of the check word XORed with its lower half. -/
def wallDigest (bs : List Byte) : Digest :=
  let w := checkWord (digestString bs)
  BitVec.ofNat 16 (w.toNat / 65536) ^^^ BitVec.ofNat 16 w.toNat

end Sys2Proof.Machine
end

