-- ==== Sys2Proof/Machine/BoardPort.lean ====
section
/-! DEFINITION. The status port: its commands, its responses, and the event record's reading
(10_status_port_and_event_record.md, section 11.4). -/

namespace Sys2Proof.Machine

/-! ## Codes (R175) -/

/-- Station state code. -/
def StationState.code : StationState → Byte
  | .loading => 0x00
  | .listen => 0x01
  | .member => 0x02
  | .isolated => 0x03

/-- Membership status code. -/
def MemberStatus.code : MemberStatus → Byte
  | .unheard => 0x00
  | .present => 0x01
  | .absent => 0x02
  | .foreign => 0x03
  | .self => 0x04

/-- Event kind code. -/
def EventKind.code : EventKind → Byte
  | .joined => 0x01
  | .isolated => 0x02
  | .memberPresent => 0x03
  | .memberAbsent => 0x04
  | .foreign => 0x05
  | .abandonApplied => 0x06
  | .resync => 0x07
  | .laggingMark => 0x08
  | .straggle => 0x09
  | .inputLost => 0x0A
  | .inputLive => 0x0B
  | .shapeFault => 0x0C
  | .repairFailed => 0x0D

/-- Capture state in bits 5 to 4 of the summary's byte 8. -/
def CaptureState.code : CaptureState → Nat
  | .waiting => 0
  | .capturing => 1
  | .holding => 2
  | .dormant => 3

/-! ## Responses (R164, R165, R167, R175) -/

/-- An optional frame number, 0 when absent. -/
def frameOrZero (f : Option Frame) : List Byte := toPair (f.getD 0).toNat

/-- READ SUMMARY: 24 bytes. -/
def summaryResponse (s : State) : List Byte :=
  [s.station.state.code, s.station.fault.code, toByte s.image.stationNumber] ++
  toPair s.settle.frame.toNat ++ [s.settle.kind.code] ++ toPair s.settle.openAge ++
  [toByte (bitOf s.banks.shown.isSome * 128 + s.capture.state.code * 16 + bitOf (s.capture.input == .live) * 8 +
    bitOf s.capture.offer.isNone * 4)] ++
  frameOrZero s.banks.shown ++ frameOrZero s.capture.offer ++
  [toByte s.publishQueue.length] ++ toPair s.ring.length ++
  [toByte s.landing.length, toByte s.requester.entries.length, toByte s.responder.queue.length,
   toByte s.responder.replies.length, toByte s.port.events.length, toByte s.port.dropped] ++
  toPair s.roundTimer.number.toNat

/-- One entry of READ MEMBERS: 13 bytes; a field whose record or presence bit is clear reads as 0. -/
def memberResponse (e : MemberEntry) : List Byte :=
  let offer := e.record.bind (·.offer)
  let ready := e.record.bind (·.ready)
  let shown := e.record.bind (·.shown)
  [e.status.code,
   toByte (bitOf e.source * 128 + bitOf e.sink * 64 + bitOf e.eligible * 32 + bitOf e.record.isSome * 16 +
     bitOf ready.isSome * 8 + bitOf shown.isSome * 4 + bitOf offer.isSome * 2 +
     bitOf ((offer.map (·.published)).getD false)),
   toByte (bitOf ((offer.map (·.frame.isNone)).getD false) * 128 + e.rounds)] ++
  frameOrZero (e.record.map (·.settled)) ++ [(e.record.map (·.kind.code)).getD 0] ++
  frameOrZero ready ++ frameOrZero shown ++
  [toByte ((offer.map (·.stream)).getD 0)] ++ frameOrZero (offer.bind (·.frame))

/-- READ MEMBERS: 32 entries, station 0 first. -/
def membersResponse (s : State) : List Byte := s.members.flatMap memberResponse

/-- READ COUNTERS: 22 counters of two bytes. -/
def countersResponse (s : State) : List Byte := s.port.counters.flatMap toPair

/-- READ EVENT: the oldest entry, or the kind NONE, with the dropped-event count. -/
def eventResponse (s : State) : List Byte :=
  (match s.port.events with
   | e :: _ => [e.kind.code] ++ toPair e.round.toNat ++ toPair e.frame.toNat ++ [e.detail]
   | [] => [0, 0, 0, 0, 0, 0]) ++ [toByte s.port.dropped]

/-! ## Transactions (R163, R167) -/

/-- The port takes a command at the eighth edge: RESET is released, and the transaction has taken none yet (R163; log entry
16). -/
def portListens (s : State) : Bool := !s.resetAsserted && s.port.transaction.isNone

/-- A command taken, with the snapshot its response carries. -/
def beginTransaction (t : Transaction) (s : State) : State := s.setPort { s.port with transaction := some t }

/-- A command whose only effect is its response (R163). -/
def answer (response : List Byte) (beyond : Byte) (s : State) : State :=
  if portListens s then beginTransaction { response := response, beyond := beyond, reported := none } s else s

/-- What SPDO gives as byte `i` of the response; nothing while no command has been taken (R163). -/
def spdoByte (s : State) (i : Nat) : Option Byte :=
  s.port.transaction.map (fun t => t.response.getD i t.beyond)

/-- READ EVENT is taken (R167). -/
def takeReadEvent (s : State) : State :=
  if portListens s then
    beginTransaction
      { response := eventResponse s, beyond := 0, reported := some (!s.port.events.isEmpty, s.port.dropped) } s
  else s

/-- CLEAR COUNTERS is taken: all 22 become 0 at the eighth edge (R165). -/
def takeClearCounters (s : State) : State :=
  if portListens s then
    beginTransaction { response := [], beyond := 0, reported := none }
      (s.setPort { s.port with counters := List.replicate 22 0 })
  else s

/-- A command byte is taken at the eighth edge: the byte picks the command, and one that is none of the five codes has no effect
and is answered with FFh for as many bytes as are clocked (R163, R175). -/
def takeCommandByte (code : Byte) (s : State) : State :=
  match code.toNat with
  | 1 => answer (summaryResponse s) 0 s
  | 2 => answer (membersResponse s) 0 s
  | 3 => answer (countersResponse s) 0 s
  | 4 => takeClearCounters s
  | 5 => takeReadEvent s
  | _ => answer [] 0xFF s

/-- The byte is one of the five codes (R175). -/
def isCommandCode (code : Byte) : Bool := 1 ≤ code.toNat && code.toNat ≤ 5

/-- The command byte of a command that is none of the five; one of the five codes is another command's byte (log entry 10). -/
def takeUnknown (code : Byte) (s : State) : State := if isCommandCode code then s else takeCommandByte code s

/-- A transaction completes: after a READ EVENT the reported entry leaves the record and the dropped-event count is lowered by
the value reported (R167). -/
def completeTransaction (s : State) : State :=
  match s.port.transaction with
  | none => s
  | some t =>
    match t.reported with
    | none => s.setPort { s.port with transaction := none }
    | some (entry, dropped) =>
      s.setPort { s.port with
        events := if entry then s.port.events.drop 1 else s.port.events,
        dropped := s.port.dropped - dropped,
        transaction := none }

/-! ## The commands -/

/-- READ_SUMMARY: the byte 01h (R164, R175). -/
def execReadSummary (s : State) : Host.Outcome State Fault Refusal := .next (takeCommandByte 0x01 s)

/-- READ_MEMBERS: the byte 02h (R164, R175). -/
def execReadMembers (s : State) : Host.Outcome State Fault Refusal := .next (takeCommandByte 0x02 s)

/-- READ_COUNTERS: the byte 03h (R165, R175). -/
def execReadCounters (s : State) : Host.Outcome State Fault Refusal := .next (takeCommandByte 0x03 s)

/-- CLEAR_COUNTERS: the byte 04h (R165, R175). -/
def execClearCounters (s : State) : Host.Outcome State Fault Refusal := .next (takeCommandByte 0x04 s)

/-- READ_EVENT: the byte 05h (R167, R175). -/
def execReadEvent (s : State) : Host.Outcome State Fault Refusal := .next (takeCommandByte 0x05 s)

/-- UNKNOWN_COMMAND (R163); one of the five codes is no unknown command (log entry 10). -/
def execUnknownCommand (code : Byte) (s : State) : Host.Outcome State Fault Refusal := .next (takeUnknown code s)

/-- TRANSACTION_COMPLETE (R163, R167). -/
def execTransactionComplete (s : State) : Host.Outcome State Fault Refusal := .next (completeTransaction s)

/-- TRANSACTION_CUT_SHORT (R163, R167): nothing is removed or lowered. -/
def execTransactionCutShort (s : State) : Host.Outcome State Fault Refusal :=
  .next (s.setPort { s.port with transaction := none })

end Sys2Proof.Machine
end

