-- ==== Sys2Proof/Machine/Coverage.lean ====
section
/-! DEFINITION. The coverage table: its opening, its claims and the questions it answers (R109 to R111). -/

namespace Sys2Proof.Machine

/-- The table's lists with no flag set. -/
def unclaimedRows (plan : List (List Expected)) : List (List CoverageEntry) :=
  plan.map (fun l => l.map (fun e => { expected := e, claimed := false }))

/-- Expected pieces of stream `k` over all tile rows (R109). -/
def expectedTotal (plan : List (List Expected)) (k : Nat) : Nat :=
  (plan.map (fun l => l.countP (fun e => e.stream == k))).sum

/-- The table as it takes the plan at acceptance: no flag set, counts at their totals, open for no frame (R109). -/
def Coverage.ofPlan (plan : List (List Expected)) : Coverage :=
  let totals := streamIds.map (expectedTotal plan)
  { rows := unclaimedRows plan, outstanding := totals, totals := totals, openFor := none }

/-- The table opened for a frame (R110). -/
def Coverage.open (c : Coverage) (f : Frame) : Coverage :=
  { c with rows := c.rows.map (fun l => l.map (fun e => { e with claimed := false })),
           outstanding := c.totals, openFor := some f }

/-- An entry stands for piece `index` of `stream`. -/
def CoverageEntry.isFor (e : CoverageEntry) (stream index : Nat) : Bool :=
  e.expected.stream == stream && e.expected.index == index

/-- The table's entry for a piece, by canvas row; none when the row lies outside the tile or the piece is not expected there
(R105). -/
def coverageEntry (img : Image) (c : Coverage) (stream row index : Nat) : Option CoverageEntry :=
  if img.tileY ≤ row then (c.rows.getD (row - img.tileY) []).find? (fun e => e.isFor stream index) else none

/-- A list with the flag of one piece set. -/
def claimInRow (stream index : Nat) (l : List CoverageEntry) : List CoverageEntry :=
  l.map (fun e => if e.isFor stream index then { e with claimed := true } else e)

/-- The table with a piece claimed: its flag set, its stream's outstanding count lowered by one (R108). -/
def Coverage.claim (c : Coverage) (img : Image) (stream row index : Nat) : Coverage :=
  { c with rows := c.rows.modify (row - img.tileY) (claimInRow stream index),
           outstanding := c.outstanding.set stream (c.outstanding.getD stream 0 - 1) }

/-- First question of R111: stream `k` is fully claimed. -/
def Coverage.fullyClaimed (c : Coverage) (k : Nat) : Bool := c.outstanding.getD k 0 == 0

/-- The piece indices of stream `k` whose flags are clear in a row's list, in the list's order. -/
def unclaimedIndices (k : Nat) (l : List CoverageEntry) : List Nat :=
  (l.filter (fun e => e.expected.stream == k && !e.claimed)).map (fun e => e.expected.index)

/-- Second question of R111: the tile rows that hold unclaimed expected pieces of stream `k`, in ascending canvas row, each with
the piece indices of `k` whose flags are clear. -/
def gaps (img : Image) (c : Coverage) (k : Nat) : List (Nat × List Nat) :=
  ((List.range c.rows.length).map (fun v => (img.tileY + v, unclaimedIndices k (c.rows.getD v [])))).filter
    (fun g => !g.2.isEmpty)

/-- The canvas rows of that answer, which is what the requester gathers into ranges (R139). -/
def gapRows (img : Image) (c : Coverage) (k : Nat) : List Nat := (gaps img c k).map (fun g => g.1)

/-- A canvas row lies in a row range. -/
def RowRange.covers (r : RowRange) (y : Nat) : Bool := r.first ≤ y && y < r.first + r.count

/-- Third question of R111: every expected piece of stream `k` in the rows of the ranges is claimed. -/
def rangesClaimed (img : Image) (c : Coverage) (k : Nat) (ranges : List RowRange) : Bool :=
  (gapRows img c k).all (fun y => !ranges.any (fun r => r.covers y))

/-- The coverage table opened for a frame (R110). -/
def openCoverage (f : Frame) (s : State) : State := s.setCoverage (s.coverage.open f)

end Sys2Proof.Machine
end

