-- ==== Sys2Proof/Machine/Flags.lean ====
section
/-! DEFINITION. The flags and judgments the station computes from its state: which streams are satisfied and whether the sink
is complete (R124, R125), who votes and who is ready (R66), eligibility (R58), and the offer a STATE carries (R95). -/

namespace Sys2Proof.Machine

/-! ## Completeness (R124, R125) -/

/-- How a contributing stream that is not fully claimed stands (R125). -/
inductive StreamStanding
  | treatedAsNone
  | awaited
  | unknown
  deriving DecidableEq, Repr

/-- The standing of stream `k` for frame `f`, by its publisher's declaration (R125). -/
def streamStanding (s : State) (f : Frame) (k : Nat) : StreamStanding :=
  let publisher := (s.image.stream k).publisher
  if publisher = s.image.stationNumber then
    (if s.capture.offer.isNone then .treatedAsNone else .awaited)
  else if !s.present publisher then .treatedAsNone
  else
    match (s.member publisher).record with
    | none => .unknown
    | some r =>
      if r.settled ≠ f - 1 then .unknown
      else
        match r.offer with
        | none => .treatedAsNone
        | some o =>
          if o.stream ≠ k then .treatedAsNone
          else
            match o.frame with
            | none => .treatedAsNone
            | some g => if g = f then .awaited else .unknown

/-- A contributing stream is satisfied for frame `f` (R125). -/
def satisfied (s : State) (f : Frame) (k : Nat) : Bool :=
  s.coverage.fullyClaimed k || streamStanding s f k == .treatedAsNone

/-- The sink is complete for frame `f` (R124). A station without the sink role is never complete. -/
def completeFor (s : State) (f : Frame) : Bool :=
  s.image.sinkRole && s.banks.backFrame == some f && s.banks.clear == .idle && s.banks.swapPending.isNone &&
    s.landing.isEmpty && s.engine == .idle && s.image.contributing.all (satisfied s f)

/-! ## The vote (R66, R67) -/

/-- An entry is a voter (R66). -/
def MemberEntry.votes (e : MemberEntry) : Bool := e.eligible && (e.status == .present || e.status == .self)

/-- An entry is ready for the open frame (R66). -/
def entryReady (s : State) (e : MemberEntry) : Bool :=
  if e.status = .self then completeFor s s.openFrame
  else
    match e.record with
    | some r => r.settled == s.settle.frame && r.ready == some s.openFrame
    | none => false

/-- The voters for the open frame (R66). -/
def voters (s : State) : List MemberEntry := s.members.filter MemberEntry.votes

/-- There is a voter and every voter is ready: the test of a COMMIT verdict (R67). -/
def commitTest (s : State) : Bool := !(voters s).isEmpty && (voters s).all (entryReady s)

/-! ## Eligibility (R58) -/

/-- The eligible flag an entry has after a settle; `wasMember` says that the station was a MEMBER before it (R58). -/
def eligibleAfter (img : Image) (wasMember : Bool) (e : MemberEntry) : Bool :=
  match e.status with
  | .present => e.sink
  | .self => img.sinkRole && wasMember
  | _ => false

/-- Every eligible flag recomputed (R58). -/
def recomputeEligibility (wasMember : Bool) (s : State) : State :=
  s.setMembers (s.members.map (fun e => { e with eligible := eligibleAfter s.image wasMember e }))

/-! ## What a STATE declares -/

/-- The offer of a source's STATE (R95); none without the source role. -/
def declaredOffer (s : State) : Option Offer :=
  s.image.ownStream.map (fun k => { stream := k, frame := s.capture.offer, published := s.capture.published })

/-- The ready frame of a STATE (R126). -/
def readyFrame (s : State) : Option Frame := if completeFor s s.openFrame then some s.openFrame else none

/-- The conditions of the published flag hold together (R94). -/
def publishedConditions (s : State) : Bool :=
  s.capture.offer.isSome && s.capture.state == .holding && s.publishQueue.isEmpty

end Sys2Proof.Machine
end

