-- ==== Sys2Proof/Machine/Banks.lean ====
section
/-! DEFINITION. Placement into the back bank (R114 to R118), bank control and the panel scan
(07_banks_and_the_panel_scan.md). -/

namespace Sys2Proof.Machine

/-- The back bank replaced. -/
def setBackBank (b : Bank) (s : State) : State := s.setBanks (s.banks.setBack b)

/-- The clear state replaced. -/
def setClear (c : ClearState) (s : State) : State := s.setBanks { s.banks with clear := c }

/-! ## The placement engine (R114, R116, R117) -/

/-- The pixels a placement writes, in ascending place of the piece: bank address and value (R116, R118). `e` is the piece's
coverage-plan entry. -/
def placedPixels (img : Image) (e : Expected) (p : Piece) : List (Nat × Pixel) :=
  (p.pixels img.background).zipIdx.filterMap (fun (v, k) =>
    let c := e.pieceFirst + k
    if e.placedFirst ≤ c && c ≤ e.placedLast then
      let xy := img.panelPosition (c - img.tileX) (p.row - img.tileY)
      some (img.bankAddress xy.1 xy.2, v)
    else none)

/-- The writes of placing a piece, found through the coverage table; none for a piece the table does not expect. -/
def placementWrites (s : State) (p : Piece) : List (Nat × Pixel) :=
  match coverageEntry s.image s.coverage p.stream p.row p.index with
  | some e => placedPixels s.image e.expected p
  | none => []

/-- The conditions under which the engine takes the head of the landing queue (R114). -/
def mayPlace (s : State) : Bool :=
  s.engine == .idle && !s.landing.isEmpty && s.banks.clear == .idle && s.banks.swapPending.isNone &&
    s.banks.backFrame == some s.openFrame

/-- The engine tests its conditions, and takes the head when they hold (R114). -/
def tryPlace (s : State) : State := if mayPlace s then s.setEngine .placing else s

/-- A completed placement: the head's pixels are written, it leaves the landing queue, the engine tests for the next
(R116). -/
def completePlacement (s : State) : State :=
  match s.engine, s.landing with
  | .placing, p :: rest =>
    tryPlace (((setBackBank (s.banks.back.writeAll (placementWrites s p)) s).setLanding rest).setEngine .idle)
  | _, _ => s

/-- A placement in progress is stopped: some of its pixels have been written, how many is a free value (R117; log entry 4). -/
def stopPlacement (s : State) : State :=
  match s.engine, s.landing with
  | .placing, p :: _ =>
    let written := (placementWrites s p).take (Config.placementProgress s.freeSeq)
    drawFree ((setBackBank (s.banks.back.writeAll written) s).setEngine .idle)
  | _, _ => s.setEngine .idle

/-- The landing queue discards its pieces and a placement in progress is stopped (R113, R117). -/
def discardLanding (s : State) : State := (stopPlacement s).setLanding []

/-! ## Clearing (R121, R123) -/

/-- A bank clear in flight is stopped: it has written some of its pixels, in ascending address, how many is a free value
(R123; log entry 4). -/
def stopClear (s : State) : State :=
  match s.banks.clear with
  | .clearingBack =>
    let n := min (Config.clearProgress s.freeSeq) s.image.panelPixels
    let writes := (List.range n).map (fun a => (a, s.image.background))
    drawFree (setClear .idle (setBackBank (s.banks.back.writeAll writes) s))
  | .clearingBoth => s
  | .idle => s

/-- The back bank is reopened: for the open frame, with the coverage table opened for it unless it already is, and with a bank
clear begun from the first pixel (R110, R122, R123). -/
def reopenBack (s : State) : State :=
  let s := stopClear s
  let s := s.setBanks { s.banks with backFrame := some s.openFrame, clear := .clearingBack }
  if s.coverage.openFor = some s.openFrame then s else openCoverage s.openFrame s

/-- The back bank is opened at joining, without a clear (R122). -/
def openBackAtJoin (s : State) : State :=
  openCoverage s.openFrame (s.setBanks { s.banks with backFrame := some s.openFrame })

/-! ## Settle notices (R127 to R130) -/

/-- The action a settle notice tells (R64). -/
inductive Action
  | commit
  | abandon
  | resync
  | join
  deriving DecidableEq, Repr

/-- STRAGGLE posted and counted (R128). -/
def straggle (committed : Frame) (detail : Byte) (s : State) : State :=
  raise .straggles 1 (post .straggle committed detail s)

/-- A notice taken with no swap pending (R127). `complete` is the judgment of R129 for the committed frame. -/
def noticeAtOnce (action : Action) (committed : Frame) (complete : Bool) (s : State) : State :=
  match action with
  | .commit =>
    if complete then openCoverage s.openFrame (s.setBanks { s.banks with swapPending := some committed })
    else reopenBack (straggle committed 0 s)
  | .abandon => reopenBack s
  | .resync => reopenBack s
  | .join => openBackAtJoin s

/-- A notice taken while a swap is pending: the back bank waits for the swap (R130). -/
def noticeBehindSwap (action : Action) (committed : Frame) (s : State) : State :=
  openCoverage s.openFrame
    (match action with
     | .commit => straggle committed 1 s
     | .abandon => s
     | .resync => s
     | .join => s)

/-- A settle notice at bank control (R127, R130). -/
def bankNotice (action : Action) (committed : Frame) (complete : Bool) (s : State) : State :=
  match s.banks.swapPending with
  | none => noticeAtOnce action committed complete s
  | some _ => noticeBehindSwap action committed s

/-- Bank control gives up its work on entry to ISOLATED (R52, R134). -/
def isolateBanks (s : State) : State :=
  let s := stopClear s
  s.setBanks { s.banks with swapPending := none }

/-! ## The panel scan (R131 to R133) -/

/-- A pending swap carried out at a scan start (R132). -/
def completeSwap (s : State) : State :=
  match s.banks.swapPending with
  | none => s
  | some f =>
    let s := s.setBanks { s.banks with front := s.banks.front.other, shown := some f, swapPending := none }
    reopenBack (raise .swaps 1 s)

/-- A scan start: the pending swap first, then the timer restarts and panel row 0 is output (R131, R132, R133). -/
def scanStart (s : State) : State :=
  let s := completeSwap s
  s.setScan { s.scan with timer := some s.image.scanPeriod, position := .row 0 }

/-- The scan goes on to the next panel row, which is what an idle step lets pass (log entry 6). -/
def scanOn (s : State) : State :=
  match s.scan.position with
  | .idle => s
  | .row y => if y + 1 < s.image.panelHeight then s.setScan { s.scan with position := .row (y + 1) } else s

/-- What the panel output port gives in one clock (R133): POD, and whether POVS and POHS are pulsed. -/
structure PanelClock where
  pod : Pixel
  povs : Bool
  pohs : Bool
  deriving DecidableEq, Repr

/-- POVS is pulsed at the scan start, which is the clock of the first pixel of row 0; that the pulse is one clock long is the
model's choice (R133; log entry 32). -/
def atScanStart (x y : Nat) : Bool := x == 0 && y == 0

/-- The clocks of panel row `y`: PW pixels of the front bank, then 8 clocks with POD 0 in which POHS is pulsed (R133). That the pulse
of POHS lasts all 8 clocks is the model's choice (DESIGN CHOICE, log entry 32). -/
def panelRow (s : State) (y : Nat) : List PanelClock :=
  (List.range s.image.panelWidth).map
    (fun x => { pod := s.banks.frontBank.read (s.image.bankAddress x y), povs := atScanStart x y, pohs := false }) ++
  List.replicate 8 { pod := 0, povs := false, pohs := true }

/-- The clocks of a whole scan, row 0 first (R133). -/
def panelScanOutput (s : State) : List PanelClock := (List.range s.image.panelHeight).flatMap (panelRow s)

/-- Every clock while the scan position is idle: POD is held at 0 and no strobe is pulsed (R133; log entry 32 for the time before
the first scan start). -/
def idleClock : PanelClock := { pod := 0, povs := false, pohs := false }

/-- What the panel output port gives now: the row being output, and between scans POD held at 0, one clock standing for every
clock there is (R133; log entry 32). -/
def panelOutput (s : State) : List PanelClock :=
  match s.scan.position with
  | .idle => [idleClock]
  | .row y => panelRow s y

/-! ## The commands -/

/-- The start-up clear is over: both banks are background, the first scan start comes, POBL is released (R121). -/
def endStartUpClear (s : State) : State :=
  let blank := Bank.cleared s.image.background
  let s := s.setBanks { s.banks with bank0 := blank, bank1 := blank, front := .bank0, clear := .idle, shown := none }
  let s := scanStart s
  s.setScan { s.scan with poblHigh := false }

/-- The clear of the back bank is over (R123). -/
def endBankClear (s : State) : State :=
  match s.banks.clear with
  | .clearingBack => tryPlace (setClear .idle (setBackBank (Bank.cleared s.image.background) s))
  | .clearingBoth => s
  | .idle => s

/-- PLACEMENT_COMPLETE (R116). With the engine IDLE there is no placement to complete (log entry 10). -/
def execPlacementComplete (s : State) : Host.Outcome State Fault Refusal := .next (completePlacement s)

/-- BANK_CLEAR_COMPLETE (R123). With no clear of the back bank in flight there is none to complete (log entry 10). -/
def execBankClearComplete (s : State) : Host.Outcome State Fault Refusal := .next (endBankClear s)

/-- SCAN_START (R131): the expiry of a running scan-period timer; a stopped timer does not expire (log entry 10). -/
def execScanStart (s : State) : Host.Outcome State Fault Refusal :=
  .next (if s.scan.timer.isSome then scanStart s else s)

/-- SCAN_END (R133). -/
def execScanEnd (s : State) : Host.Outcome State Fault Refusal :=
  .next (s.setScan { s.scan with position := .idle })

end Sys2Proof.Machine
end

