-- ==== Sys2Proof/Machine/RepairRequests.lean ====
section
/-! DEFINITION. The repair requester (08_repair_requests.md): gap scan, composition, waiting, and every way an entry ends. -/

namespace Sys2Proof.Machine

/-- The requester's repair list replaced. -/
def setEntries (l : List RepairEntry) (s : State) : State := s.setRequester { s.requester with entries := l }

/-- The active entry of a stream (R136; a CLOSED entry has left the list). -/
def entryOfStream (s : State) (k : Nat) : Option RepairEntry := s.requester.entries.find? (fun e => e.stream == k)

/-- The active entry with a tag (R136). -/
def entryOfTag (s : State) (tag : Nat) : Option RepairEntry := s.requester.entries.find? (fun e => e.tag == tag)

/-- The entry with a tag changed in place. -/
def changeEntry (tag : Nat) (f : RepairEntry → RepairEntry) (s : State) : State :=
  setEntries (s.requester.entries.map (fun e => if e.tag = tag then f e else e)) s

/-! ## Composition (R138 to R140) -/

/-- Ascending rows gathered into ranges of consecutive rows, cut at 255 rows (R139); `cur` is the range being gathered. -/
def gatherRanges : List Nat → RowRange → List RowRange
  | [], cur => [cur]
  | y :: ys, cur =>
    if y = cur.first + cur.count && cur.count < 255 then gatherRanges ys { cur with count := cur.count + 1 }
    else cur :: gatherRanges ys { first := y, count := 1 }

/-- The row ranges of ascending rows (R139), before the first four are taken. -/
def rowRanges : List Nat → List RowRange
  | [] => []
  | y :: ys => gatherRanges ys { first := y, count := 1 }

/-- The first tag after the last one used, modulo 8, that no active entry holds (R140). -/
def nextTag (s : State) : Nat :=
  (([1, 2, 3, 4, 5, 6, 7, 8].map (fun i => (s.requester.lastTag + i) % 8)).find?
    (fun t => (entryOfTag s t).isNone)).getD 0

/-- The conditions under which a gap scan composes an entry for stream `k` (R138). -/
def mayCompose (s : State) (k : Nat) : Bool :=
  s.requester.published.getD k false &&
  ((s.image.stream k).publisher == s.image.stationNumber || s.present (s.image.stream k).publisher) &&
  !(gapRows s.image s.coverage k).isEmpty &&
  (entryOfStream s k).isNone &&
  !s.requester.unrepairable.getD k false &&
  s.requester.entries.length < Config.repairListSize

/-- The entry a gap scan composes for stream `k` (R138 to R140). -/
def newEntry (s : State) (k : Nat) : RepairEntry :=
  { tag := nextTag s, stream := k, frame := s.openFrame, firstColumn := s.image.firstShared k,
    lastColumn := s.image.lastShared k, ranges := (rowRanges (gapRows s.image s.coverage k)).take 4,
    state := .composed, attempts := 1, wait := 0, backoff := 0, code := none }

/-- An entry composed for stream `k` when its conditions hold, the stream passed over otherwise (R138). -/
def composeFor (s : State) (k : Nat) : State :=
  if mayCompose s k then
    s.setRequester { s.requester with entries := s.requester.entries ++ [newEntry s k], lastTag := nextTag s }
  else s

/-- The gap scan: the contributing streams in ascending id (R138). -/
def gapScan (s : State) : State := s.image.contributing.foldl composeFor s

/-- The published mark of a stream set, and the gap scan that follows (R137). -/
def markPublished (k : Nat) (s : State) : State :=
  gapScan (s.setRequester { s.requester with published := s.requester.published.set k true })

/-! ## Closing (R148, R149) -/

/-- The code's nibble in the REPAIR FAILED detail, for the codes that post the event (R148, R175). -/
def ConditionCode.failure : ConditionCode → Option Nat
  | .partly => some 1
  | .gone => some 2
  | .malformed => some 3
  | .refused => some 4
  | .noResponse => some 5
  | .delivered => none
  | .satisfied => none
  | .withdrawn => none
  | .overtaken => none

/-- The codes that set the unrepairable mark (R145, R148). -/
def ConditionCode.marksUnrepairable : ConditionCode → Bool
  | .partly => true
  | .gone => true
  | .malformed => true
  | _ => false

/-- REPAIR FAILED posted, when the code calls for it (R148). -/
def postFailure (code : ConditionCode) (e : RepairEntry) (s : State) : State :=
  match code.failure with
  | some n => post .repairFailed e.frame (toByte (n * 16 + e.stream)) s
  | none => s

/-- An entry closes otherwise than by a settle (R148): its code's mark and event, it leaves the list, and a gap scan follows. -/
def closeEntry (code : ConditionCode) (e : RepairEntry) (s : State) : State :=
  let s := if code.marksUnrepairable then
      s.setRequester { s.requester with unrepairable := s.requester.unrepairable.set e.stream true } else s
  let s := postFailure code e s
  gapScan (setEntries (s.requester.entries.filter (fun x => x.tag != e.tag)) s)

/-- A settle closes every entry OVERTAKEN, without event or scan, and clears the marks (R149). -/
def overtakeEntries (s : State) : State :=
  s.setRequester { s.requester with
    entries := [], published := List.replicate 16 false, unrepairable := List.replicate 16 false }

/-! ## Arrivals -/

/-- A REQUEST of the entry passed readback (R141). -/
def requestPassed (tag : Nat) (s : State) : State :=
  raise .requestsSent 1 (changeEntry tag (fun e => { e with state := .sent, wait := 0 }) s)

/-- A claim reported by the segment filter, with its stream and canvas row (R143). -/
def takeClaim (k row : Nat) (s : State) : State :=
  match entryOfStream s k with
  | none => s
  | some e =>
    if e.ranges.any (fun r => r.covers row) && rangesClaimed s.image s.coverage k e.ranges then
      match e.state with
      | .composed => closeEntry .withdrawn e s
      | .sent => closeEntry .satisfied e s
      | .closed => s
    else s

/-- A repair SEGMENT's requester and tag: a SENT entry of this requester's has a sign of life (R142). -/
def takeRepairMark (m : RepairMark) (s : State) : State :=
  if m.requester = s.image.stationNumber then
    changeEntry m.tag (fun e => if e.state = .sent then { e with wait := 0 } else e) s
  else s

/-- A STATUS matches an entry (R144). -/
def statusMatches (s : State) (responder : Nat) (m : StatusFields) (e : RepairEntry) : Bool :=
  e.tag == m.tag && e.frame == m.frame && (s.image.stream e.stream).publisher == responder &&
    (e.state == .sent || (e.state == .composed && 2 ≤ e.attempts))

/-- A REFUSED STATUS that matches (R146). -/
def takeRefusal (e : RepairEntry) (s : State) : State :=
  if e.state = .sent && e.backoff = 0 then
    if e.attempts < Config.attemptLimit then
      changeEntry e.tag (fun e => { e with backoff := 1 + s.image.stationNumber % 4 }) s
    else closeEntry .refused e s
  else s

/-- A STATUS delivered to the requester (R144 to R146). -/
def takeStatus (responder : Nat) (m : StatusFields) (s : State) : State :=
  if m.requester ≠ s.image.stationNumber then s
  else
    match s.requester.entries.find? (statusMatches s responder m) with
    | none => raise .orphanStatuses 1 s
    | some e =>
      match m.outcome with
      | .delivered => closeEntry .delivered e s
      | .partly => closeEntry .partly e s
      | .gone => closeEntry .gone e s
      | .malformed => closeEntry .malformed e s
      | .refused => takeRefusal e s

/-- A STATE declares a contributing stream's offer of the open frame published (R137). -/
def declaresPublished (s : State) (sender : Nat) (m : StateFields) : Option Nat :=
  match m.offer with
  | none => none
  | some o =>
    if sender ≠ s.image.stationNumber && m.digest == s.digest && s.image.contributes o.stream &&
        (s.image.stream o.stream).publisher == sender && o.frame == some s.openFrame && o.published then
      some o.stream
    else none

/-- A STATE delivered to the requester (R137). -/
def requesterTakeState (sender : Nat) (m : StateFields) (s : State) : State :=
  if s.actsAsSink then
    match declaresPublished s sender m with
    | some k => markPublished k s
    | none => s
  else s

/-! ## Round starts (R142, R146, R147) -/

/-- The entry goes back to COMPOSED for a re-send (R146, R147; log entry 23). -/
def RepairEntry.recomposed (e : RepairEntry) : RepairEntry :=
  { e with state := .composed, attempts := e.attempts + 1, wait := 0, backoff := 0 }

/-- The entry's back-off ends at the next round start (R146). -/
def RepairEntry.backoffEnds (e : RepairEntry) : Bool := e.state == .sent && e.backoff == 1

/-- The entry times out at the next round start (R147). -/
def RepairEntry.timesOut (e : RepairEntry) : Bool :=
  e.state == .sent && e.backoff == 0 && Config.waitLimit ≤ e.wait + 1

/-- A round start at one entry. -/
def ageEntry (e : RepairEntry) (s : State) : State :=
  if e.state ≠ .sent then s
  else if 0 < e.backoff then
    if e.backoff = 1 then changeEntry e.tag RepairEntry.recomposed s
    else changeEntry e.tag (fun e => { e with backoff := e.backoff - 1 }) s
  else if e.timesOut then
    if e.attempts < Config.attemptLimit then changeEntry e.tag RepairEntry.recomposed s
    else closeEntry .noResponse e s
  else changeEntry e.tag (fun e => { e with wait := e.wait + 1 }) s

/-- A round start at the repair requester: the entries in list order, as they stood at the round start (R142, R146, R147). -/
def requesterRoundStart (s : State) : State := s.requester.entries.foldl (fun s e => ageEntry e s) s

end Sys2Proof.Machine
end

