-- ==== Sys2Proof/Machine/Reception.lean ====
section
/-! DEFINITION. The segment filter and claiming (06_reception_and_placement.md). -/

namespace Sys2Proof.Machine

/-- The fate of a SEGMENT at the segment filter (R104). -/
inductive Fate
  | notForThisTile
  | notMember
  | stale
  | early
  | duplicate
  | overflow
  | claimed
  deriving DecidableEq, Repr

/-- The tests on a SEGMENT whose piece the tile expects, with its claimed flag (R104, R106, R107). -/
def fateOfExpected (s : State) (p : Piece) (claimed : Bool) : Fate :=
  if !s.isMember then .notMember
  else if 32768 ≤ forward s.openFrame p.frame then .stale
  else if 1 ≤ forward s.openFrame p.frame then .early
  else if claimed then .duplicate
  else if Config.landingQueueSize ≤ s.landing.length then .overflow
  else .claimed

/-- The tests of R104 in their order; the first one met decides. -/
def fate (s : State) (p : Piece) : Fate :=
  if s.image.contributes p.stream then
    match coverageEntry s.image s.coverage p.stream p.row p.index with
    | none => .notForThisTile
    | some e => fateOfExpected s p e.claimed
  else .notForThisTile

/-- A piece is claimed: its flag and its stream's count, its place in the landing queue, the count of pieces claimed, the
report to the repair requester, and the placement engine's test (R108, R114). -/
def claim (p : Piece) (s : State) : State :=
  let s := s.setCoverage (s.coverage.claim s.image p.stream p.row p.index)
  let s := s.setLanding (s.landing ++ [p])
  let s := raise .piecesClaimed 1 s
  tryPlace (takeClaim p.stream p.row s)

/-- A SEGMENT at the segment filter of a sink (R103, R104). -/
def filterSegment (p : Piece) (s : State) : State :=
  match fate s p with
  | .notForThisTile => s
  | .notMember => s
  | .stale => raise .stale 1 s
  | .early => raise .early 1 s
  | .duplicate => raise .duplicate 1 s
  | .overflow => raise .overflow 1 s
  | .claimed => claim p s

/-- A SEGMENT delivered to a sink: the repair requester takes its tag, the segment filter the piece; their order makes no
difference (R103, R142). -/
def takeSegment (m : SegmentFields) (s : State) : State :=
  if s.image.sinkRole then
    let s := match m.repair with
      | some r => takeRepairMark r s
      | none => s
    filterSegment m.piece s
  else s

end Sys2Proof.Machine
end

