-- ==== Sys2Proof/Machine/Membership.lean ====
section
/-! DEFINITION. The membership table (section 3.4): taking STATE bursts and ageing. -/

namespace Sys2Proof.Machine

/-- The record a STATE leaves (R54, R55): an optional field it does not carry is absent. -/
def recordOf (m : StateFields) : Record :=
  { settled := m.settled, kind := m.kind, ready := m.ready, shown := m.shown, offer := m.offer }

/-- A STATE of another station with a matching digest (R55). -/
def takeMatching (sender : Nat) (m : StateFields) (s : State) : State :=
  let e := s.member sender
  let known := e.status == .present
  let e' : MemberEntry :=
    { status := .present, source := m.source, sink := m.sink, rounds := 0, eligible := known && e.eligible,
      record := some (recordOf m) }
  let s := s.setMember sender e'
  if known then s else post .memberPresent s.settle.frame (toByte sender) s

/-- A STATE of another station with a differing digest (R56). -/
def takeDiffering (sender : Nat) (m : StateFields) (s : State) : State :=
  let e := s.member sender
  let e' : MemberEntry :=
    { status := .foreign, source := m.source, sink := m.sink, rounds := 0, eligible := false, record := none }
  let s := s.setMember sender e'
  if e.status = .foreign then s else post .foreign s.settle.frame (toByte sender) s

/-- The station's own STATE heard back as a MEMBER: the SELF entry's record is replaced (R55). -/
def takeOwnState (sender : Nat) (m : StateFields) (s : State) : State :=
  s.setMember sender { s.member sender with record := some (recordOf m) }

/-- A valid STATE at the membership table (R55, R56). -/
def tableTakeState (sender : Nat) (m : StateFields) (s : State) : State :=
  if sender = s.image.stationNumber then takeOwnState sender m s
  else if m.digest = s.digest then takeMatching sender m s
  else takeDiffering sender m s

/-- The next round start makes the entry ABSENT (R57). -/
def MemberEntry.agesOut (limit : Nat) (e : MemberEntry) : Bool :=
  e.status == .present && limit ≤ saturate 15 e.rounds 1

/-- An entry after a round start (R57). -/
def MemberEntry.aged (limit : Nat) (e : MemberEntry) : MemberEntry :=
  if e.status = .present then
    let n := saturate 15 e.rounds 1
    if limit ≤ n then { e with status := .absent, rounds := n, eligible := false } else { e with rounds := n }
  else e

/-- A round start at the entry of station `k` (R57). -/
def ageMember (s : State) (k : Nat) : State :=
  let e := s.member k
  let s' := s.setMember k (e.aged s.image.absenceLimit)
  if e.agesOut s.image.absenceLimit then post .memberAbsent s.settle.frame (toByte k) s' else s'

/-- The station numbers. -/
def stationNumbers : List Nat := List.range 32

/-- A round start at the membership table, in ascending station number (R57; log entry 8). -/
def tableRoundStart (s : State) : State := stationNumbers.foldl ageMember s

/-- A PRESENT entry becomes ABSENT because the station joins alone (R50). -/
def forgetMember (s : State) (k : Nat) : State :=
  let e := s.member k
  if e.status = .present then
    post .memberAbsent s.settle.frame (toByte k) (s.setMember k { e with status := .absent, eligible := false })
  else s

/-- Every PRESENT entry becomes ABSENT, in ascending station number (R50; log entry 8). -/
def forgetMembers (s : State) : State := stationNumbers.foldl forgetMember s

/-- The frame and kind chosen at joining: an entry's latest STATE takes over when its settled frame is ahead (R49). -/
def laterFrame (best : Frame × SettleKind) (e : MemberEntry) : Frame × SettleKind :=
  match e.status, e.record with
  | .present, some r => if isAhead r.settled best.1 then (r.settled, r.kind) else best
  | _, _ => best

/-- The settled frame and kind a station joins with by count (R49). A station that joins by count has taken the MARK that
aligned it, so the last MARK value is there; the reset value of R60 stands in the states no run reaches. -/
def joiningFrame (s : State) : Frame × SettleKind :=
  s.members.foldl laterFrame (s.settle.lastMark.getD (0, .start))

end Sys2Proof.Machine
end

