-- ==== Sys2Proof/Machine/Capture.lean ====
section
/-! DEFINITION. The capture unit with the retain ring and the publish queue (05_capture_and_publication.md). -/

namespace Sys2Proof.Machine

/-- The stream this station publishes, as its table entry; unused without the source role. -/
def ownEntry (s : State) : StreamEntry :=
  match s.image.ownStream with
  | some k => s.image.stream k
  | none => .unused

/-- The number of the stream this station publishes. -/
def ownStreamId (s : State) : Nat := s.image.ownStream.getD 0

/-- The capture state replaced. -/
def setCaptureState (c : CaptureState) (s : State) : State := s.setCapture { s.capture with state := c }

/-! ## Published flag (R94) -/

/-- The own published flag at the repair requester: the mark of the own stream is set when that stream contributes to the tile,
and a gap scan runs whether or not it does (R137, R138). -/
def ownPublished (s : State) : State :=
  if s.image.contributes (ownStreamId s) then markPublished (ownStreamId s) s else gapScan s

/-- The published flag is set at the moment its conditions first hold; the repair requester of a station that is also a sink
learns of it at once (R94, R137, R138). -/
def checkPublished (s : State) : State :=
  if publishedConditions s && !s.capture.published then
    let s := s.setCapture { s.capture with published := true }
    if s.actsAsSink then ownPublished s else s
  else s

/-! ## Producing rows (R90, R93, R97, R99) -/

/-- A piece enters the retain ring as its last entry, the oldest evicted from a full ring (R97). -/
def enterRing (ring : List RingEntry) (p : Piece) : List RingEntry :=
  (if ring.length < Config.retainRingSize then ring else ring.drop 1) ++
    [{ row := p.row, index := p.index, count := p.count, fill := p.fill, payload := p.payload }]

/-- A row offered to the publish queue: admitted whole, or withheld and counted (R99). -/
def offerRow (pieces : List Piece) (s : State) : State :=
  if pieces.length ≤ Config.publishQueueSize - s.publishQueue.length then
    s.setPublishQueue (s.publishQueue ++ pieces)
  else raise .rowsWithheld 1 s

/-- The row count goes up by one, and at the stream height the capture is HOLDING (R90). -/
def advanceRow (s : State) : State :=
  let k := s.capture.rowCount + 1
  s.setCapture { s.capture with
    rowCount := k,
    state := if k = (ownEntry s).height then .holding else s.capture.state }

/-- A row's pieces enter the retain ring, then the row is offered to the publish queue, then it is counted (R90). -/
def produceRow (pieces : List Piece) (s : State) : State :=
  let s := s.setRing (pieces.foldl enterRing s.ring)
  advanceRow (offerRow pieces s)

/-- Piece `i` of the stream row being produced (R90, R93). -/
def rowPiece (s : State) (fill : Bool) (pixels : List Pixel) (i : Nat) : Piece :=
  let e := ownEntry s
  let count := e.piecePixels i
  { stream := ownStreamId s, frame := s.capture.offer.getD 0, row := e.y0 + s.capture.rowCount, index := i, count := count,
    format := e.format, fill := fill,
    payload := if fill then [] else packPayload e.format ((pixels.drop (Config.pieceWidth * i)).take count) }

/-- The pieces of the stream row being produced, in ascending index. -/
def rowPieces (s : State) (fill : Bool) (pixels : List Pixel) : List Piece :=
  (List.range (ownEntry s).pieces).map (rowPiece s fill pixels)

/-- A fill row (R93). -/
def produceFillRow (s : State) : State :=
  raise .fillPieces (ownEntry s).pieces (produceRow (rowPieces s true []) s)

/-- `n` fill rows, one after another. -/
def produceFillRows : Nat → State → State
  | 0, s => s
  | n + 1, s => produceFillRows n (produceFillRow s)

/-- The capture ends with fill rows for every row not yet taken, and the capture state becomes HOLDING (R89, R92, R93). -/
def endCaptureWithFill (s : State) : State :=
  setCaptureState .holding (produceFillRows ((ownEntry s).height - s.capture.rowCount) s)

/-! ## Shape faults (R91) -/

/-- The frame of a SHAPE FAULT (R91). -/
def shapeFaultFrame (s : State) : Frame := s.capture.offer.getD s.openFrame

/-- SHAPE FAULT, at most once per input frame (R91). -/
def postShapeFault (detail : Byte) (s : State) : State :=
  if s.capture.shapeFaultPosted then s
  else
    let s := post .shapeFault (shapeFaultFrame s) detail s
    s.setCapture { s.capture with shapeFaultPosted := true }

/-! ## The pixel input port (R84 to R91) -/

/-- A frame start at the input state (R86). -/
def inputFrameStart (s : State) : State :=
  if s.capture.input = .lost then
    post .inputLive s.openFrame 0 (s.setCapture { s.capture with input := .live, silence := 0 })
  else s.setCapture { s.capture with silence := 0 }

/-- The new input frame is skipped and counted (R89). -/
def skipInputFrame (s : State) : State :=
  raise .inputFramesSkipped 1 (s.setCapture { s.capture with disposition := .skipped })

/-- A frame start at the capture state (R89). -/
def captureFrameStart (s : State) : State :=
  match s.capture.state with
  | .waiting => s.setCapture { s.capture with state := .capturing, rowCount := 0, disposition := .taken }
  | .capturing => checkPublished (skipInputFrame (endCaptureWithFill (postShapeFault 4 s)))
  | .holding => skipInputFrame s
  | .dormant => skipInputFrame s

/-- The shape-fault-posted flag returns to clear for the new input frame (R87, R89). -/
def newInputFrame (s : State) : State := s.setCapture { s.capture with shapeFaultPosted := false }

/-- A frame start, by station state (R84, R96; log entry 17). -/
def takeFrameStart (s : State) : State :=
  if s.image.sourceRole then
    match s.station.state with
    | .loading => s
    | .listen => newInputFrame (inputFrameStart s)
    | .member => newInputFrame (captureFrameStart (inputFrameStart s))
    | .isolated => newInputFrame (s.setCapture { s.capture with disposition := .skipped })
  else s

/-- A row brought to the stream width: padded with background, or cut (R90). -/
def fitRow (w : Nat) (background : Pixel) (pixels : List Pixel) : List Pixel :=
  pixels.take w ++ List.replicate (w - pixels.length) background

/-- A captured row (R90). -/
def captureRow (pixels : List Pixel) (s : State) : State :=
  let w := (ownEntry s).width
  let s := if pixels.length < w then postShapeFault 1 s else if w < pixels.length then postShapeFault 2 s else s
  checkPublished (produceRow (rowPieces s false (fitRow w s.image.background pixels)) s)

/-- A row completion taken as a MEMBER (R85, R90, R91). In WAITING and DORMANT it is ignored whatever the disposition: R91 says
SKIPPED there, where R88 may have left TAKEN (log entry 31). -/
def memberRow (pixels : List Pixel) (s : State) : State :=
  let s := if s.capture.state = .capturing then s.setCapture { s.capture with silence := 0 } else s
  match s.capture.disposition with
  | .skipped => s
  | .taken =>
    match s.capture.state with
    | .capturing => captureRow pixels s
    | .holding => postShapeFault 3 s
    | .waiting => s
    | .dormant => s

/-- A row completion: taken by a MEMBER with the source role only (R84). -/
def takeRow (pixels : List Pixel) (s : State) : State := if s.actsAsSource then memberRow pixels s else s

/-! ## Round starts (R85, R86, R92) -/

/-- The next round start brings the silence count to the input silence limit (R86). -/
def inputLossDue (s : State) : Bool :=
  s.image.sourceRole && s.capture.input == .live && s.image.silenceLimit ≤ saturate Config.count8 s.capture.silence 1

/-- The input becomes LOST; a capture in progress ends with fill rows (R86, R92). -/
def loseInput (s : State) : State :=
  let s := s.setCapture { s.capture with input := .lost }
  if s.capture.state = .capturing then
    let s := endCaptureWithFill s
    let s := s.setCapture { s.capture with disposition := .skipped }
    checkPublished (post .inputLost s.openFrame 1 s)
  else post .inputLost s.openFrame 0 s

/-- A round start at the capture unit (R85, R86). -/
def captureRoundStart (s : State) : State :=
  if s.image.sourceRole && s.capture.input == .live then
    let due := inputLossDue s
    let s := s.setCapture { s.capture with silence := saturate Config.count8 s.capture.silence 1 }
    if due then loseInput s else s
  else s

/-! ## Settle notices and isolation (R88, R96) -/

/-- A capture in progress is cut: no further row of it is produced (R88). In every other capture state the disposition is left
as it is, as R88 says in step 1, also where HOLDING becomes WAITING or DORMANT with it TAKEN, against R91 (log entry 31). -/
def cutCapture (s : State) : State :=
  if s.capture.state = .capturing then s.setCapture { s.capture with disposition := .skipped } else s

/-- The offer for the frame that opens is locked from the input state (R88). -/
def lockOffer (s : State) : State :=
  if s.image.sourceRole then
    let s := ((cutCapture s).setRing []).setPublishQueue []
    s.setCapture { s.capture with
      published := false, rowCount := 0,
      offer := if s.capture.input = .live then some s.openFrame else none,
      state := if s.capture.input = .live then .waiting else .dormant }
  else s

/-- The capture side gives up its work on entry to ISOLATED (R52, R96; log entry 17). -/
def isolateCapture (s : State) : State :=
  let s := ((cutCapture s).setRing []).setPublishQueue []
  s.setCapture { s.capture with state := .dormant, offer := none, published := false }

/-- A fresh SEGMENT passed readback: the head leaves the publish queue (R100). -/
def freshPassed (s : State) : State := checkPublished (s.setPublishQueue (s.publishQueue.drop 1))

/-! ## The commands -/

/-- FRAME_START (R89). -/
def execFrameStart (s : State) : Host.Outcome State Fault Refusal := .next (takeFrameStart s)

/-- ROW_COMPLETION (R90). -/
def execRowCompletion (pixels : List Pixel) (s : State) : Host.Outcome State Fault Refusal := .next (takeRow pixels s)

end Sys2Proof.Machine
end

