-- ==== Sys2Proof/Machine/RepairService.lean ====
section
/-! DEFINITION. The repair responder (09_repair_service.md). -/

namespace Sys2Proof.Machine

/-! ## The reply queue (R160) -/

/-- A STATUS offered to the reply queue: appended, or dropped and counted when the queue holds 4. -/
def offerReply (m : StatusFields) (s : State) : State :=
  if s.responder.replies.length < Config.replyQueueSize then
    s.setResponder { s.responder with replies := s.responder.replies ++ [m] }
  else raise .statusesDropped 1 s

/-! ## The walk (R156, R157) -/

/-- The pieces of a request in the order of the walk (R156). -/
def requestPieces (e : StreamEntry) (q : RequestFields) : List Cursor :=
  q.ranges.zipIdx.flatMap (fun (r, n) =>
    (List.range r.count).flatMap (fun k =>
      (span (e.indexOf q.firstColumn) (e.indexOf q.lastColumn)).map (fun i =>
        { range := n, row := r.first + k, index := i })))

/-- The pieces after the one the cursor names. -/
def piecesAfter (c : Cursor) : List Cursor → List Cursor
  | [] => []
  | d :: l => if d = c then l else piecesAfter c l

/-- The retain ring's entry for a piece (R98). -/
def lookup (ring : List RingEntry) (c : Cursor) : Option RingEntry :=
  ring.find? (fun e => e.row == c.row && e.index == c.index)

/-- Where a walk stops. -/
inductive WalkEnd
  /-- the ring holds the piece: its copy fills the repair slot -/
  | found (c : Cursor) (e : RingEntry) (gone : Nat)
  /-- no next piece: the service ends -/
  | exhausted (gone : Nat)
  deriving DecidableEq, Repr

/-- A walk over the pieces still to look up, with the count of pieces gone so far (R157). -/
def walk (ring : List RingEntry) : List Cursor → Nat → WalkEnd
  | [], gone => .exhausted gone
  | c :: l, gone =>
    match lookup ring c with
    | some e => .found c e gone
    | none => walk ring l (saturate Config.serviceCount gone 1)

/-- The repair SEGMENT made of a ring entry for a request (R158). -/
def repairSegment (s : State) (r : QueuedRequest) (e : RingEntry) : SegmentFields :=
  { piece := { stream := ownStreamId s, frame := s.openFrame, row := e.row, index := e.index, count := e.count,
               format := (ownEntry s).format, fill := e.fill, payload := e.payload },
    repair := some { requester := r.requester, tag := r.fields.tag } }

/-- The outcome of a service (R159). -/
def serviceOutcome (sent gone : Nat) : Outcome :=
  if sent = 0 then .gone else if gone = 0 then .delivered else .partly

/-- The STATUS that ends a service (R159). -/
def serviceStatus (r : QueuedRequest) : StatusFields :=
  { requester := r.requester, tag := r.fields.tag, outcome := serviceOutcome r.sent r.gone, frame := r.fields.frame,
    sent := r.sent, gone := r.gone }

/-- The head request goes on with the walk's end: the slot is filled, or the service ends and what follows it is `next`. -/
def afterWalk (r : QueuedRequest) (rest : List QueuedRequest) (next : State → State) (s : State) : WalkEnd → State
  | .found c e gone =>
    s.setResponder { s.responder with
      queue := { r with gone := gone } :: rest, cursor := some c, slot := some (repairSegment s r e) }
  | .exhausted gone => next (offerReply (serviceStatus { r with gone := gone }) s)

/-- Service of the requests begins, the first at its first piece: at the end of one the next enters service in the same step
(R155, R157, R159). -/
def serve : List QueuedRequest → State → State
  | [], s => s.setResponder { s.responder with queue := [], cursor := none, slot := none }
  | r :: rest, s =>
    afterWalk r rest (serve rest) s (walk s.ring (requestPieces (ownEntry s) r.fields) r.gone)

/-- The repair slot's segment passed readback (R158). -/
def slotPassed (s : State) : State :=
  match s.responder.queue, s.responder.cursor with
  | r :: rest, some c =>
    let r := { r with sent := saturate Config.serviceCount r.sent 1 }
    let s := raise .repairSegmentsSent 1 s
    let s := s.setResponder { s.responder with slot := none }
    afterWalk r rest (serve rest) s (walk s.ring (piecesAfter c (requestPieces (ownEntry s) r.fields)) r.gone)
  | _, _ => s

/-- The head STATUS passed readback and leaves the reply queue (R160). -/
def statusPassed (s : State) : State := s.setResponder { s.responder with replies := s.responder.replies.drop 1 }

/-! ## Taking a REQUEST (R152 to R155) -/

/-- Row ranges in ascending order of first row, no two sharing a row (R153). -/
def rangesAscend : List RowRange → Bool
  | [] => true
  | [_] => true
  | a :: b :: l => a.first + a.count - 1 < b.first && rangesAscend (b :: l)

/-- A REQUEST that does not fit its stream (R153). -/
def requestMalformed (e : StreamEntry) (q : RequestFields) : Bool :=
  q.lastColumn < q.firstColumn || q.firstColumn < e.x0 || e.x0 + e.width ≤ q.lastColumn ||
    q.ranges.any (fun r => r.count == 0) ||
    q.ranges.any (fun r => r.first < e.y0 || e.y0 + e.height < r.first + r.count) || !rangesAscend q.ranges

/-- The requester is a present member; this station's own number is taken as one (R152, test 1). -/
def requesterPresent (s : State) (requester : Nat) : Bool :=
  requester == s.image.stationNumber || s.present requester

/-- A copy of the request waits or is in service (R154). -/
def requestQueued (s : State) (requester tag : Nat) : Bool :=
  s.responder.queue.any (fun r => r.requester == requester && r.fields.tag == tag)

/-- A STATUS that answers a REQUEST at once (R152). -/
def immediateStatus (requester : Nat) (q : RequestFields) (o : Outcome) : StatusFields :=
  { requester := requester, tag := q.tag, outcome := o, frame := q.frame, sent := 0, gone := 0 }

/-- A request accepted: the last of the queue, in service at once when the queue was empty (R155). -/
def acceptRequest (requester : Nat) (q : RequestFields) (s : State) : State :=
  let r : QueuedRequest := { requester := requester, fields := q, sent := 0, gone := 0 }
  match s.responder.queue with
  | [] => serve [r] s
  | l => s.setResponder { s.responder with queue := l ++ [r] }

/-- A REQUEST for this station's stream, by the six tests of R152. -/
def testRequest (requester : Nat) (q : RequestFields) (s : State) : State :=
  if !requesterPresent s requester then raise .requestsIgnored 1 s
  else if q.frame ≠ s.openFrame || s.capture.state == .dormant then offerReply (immediateStatus requester q .gone) s
  else if requestMalformed (ownEntry s) q then offerReply (immediateStatus requester q .malformed) s
  else if requestQueued s requester q.tag then s
  else if Config.repairQueueSize ≤ s.responder.queue.length then
    raise .requestsRefused 1 (offerReply (immediateStatus requester q .refused) s)
  else acceptRequest requester q s

/-- A REQUEST delivered to the responder; one for another station's stream is set aside (R151, R152). -/
def takeRequest (requester : Nat) (q : RequestFields) (s : State) : State :=
  if s.image.ownStream = some q.stream then testRequest requester q s else s

/-! ## Purge (R161, R162) -/

/-- The repair queue, the slot and the reply queue are emptied without a STATUS; the cursor becomes idle. -/
def purgeResponder (s : State) : State := s.setResponder .reset

end Sys2Proof.Machine
end

