-- ==== Sys2Proof/Machine/Settling.lean ====
section
/-! DEFINITION. The settle unit: composing the MARK, taking settles, and what a settle sets in motion
(04_settling_frames.md). -/

namespace Sys2Proof.Machine

/-! ## Composing the MARK (R65 to R68) -/

/-- What the settle unit composes: the frame and kind, and whether that is a verdict on the open frame (R65, R67, R68). -/
def composeVerdict (s : State) : Frame × SettleKind × Bool :=
  if commitTest s then (s.openFrame, .commit, true)
  else if s.image.deadline ≤ s.settle.openAge then (s.openFrame, .abandon, true)
  else (s.settle.frame, s.settle.kind, false)

/-- The fields of the MARK: the round timer adds its number plus one (R18, R65). -/
def composeMark (s : State) : MarkFields :=
  let v := composeVerdict s
  { round := s.roundTimer.number + 1, settled := v.1, kind := v.2.1 }

/-! ## A settle (R63, R64, R80) -/

/-- The path by which a commit or an abandon comes (R64). -/
inductive SettlePath
  | ownMark
  | receivedMark
  | state
  deriving DecidableEq, Repr

/-- The detail of ABANDON APPLIED (R64). -/
def SettlePath.detail : SettlePath → Byte
  | .ownMark => 0
  | .receivedMark => 1
  | .state => 2

/-- The settle notice at the sink's blocks: the landing queue, the placement engine, bank control, and the requester; `complete`
is the judgment made before any block acted on the notice (R80, R113, R129, R149). -/
def sinkNotice (action : Action) (committed : Frame) (complete : Bool) (s : State) : State :=
  if s.image.sinkRole then overtakeEntries (bankNotice action committed complete (discardLanding s)) else s

/-- The settle notice at the source's blocks (R80, R88, R161). -/
def sourceNotice (s : State) : State := if s.image.sourceRole then purgeResponder (lockOffer s) else s

/-- The settle notice at every block told of settles (R80). -/
def notice (action : Action) (committed : Frame) (complete wasMember : Bool) (s : State) : State :=
  sinkNotice action committed complete (sourceNotice (recomputeEligibility wasMember s))

/-- The settle unit's own part of a settle: S, its kind, the open age (R63). -/
def advance (f : Frame) (k : SettleKind) (s : State) : State :=
  s.setSettle { s.settle with frame := f, kind := k, openAge := 0 }

/-- A settle of the open frame with kind COMMIT (R64). -/
def settleCommit (s : State) : State :=
  let f := s.openFrame
  let complete := completeFor s f
  notice .commit f complete true (raise .commitsTaken 1 (advance f .commit s))

/-- A settle of the open frame with kind ABANDON (R64). -/
def settleAbandon (path : SettlePath) (s : State) : State :=
  let f := s.openFrame
  notice .abandon f false true
    (post .abandonApplied f path.detail (raise .abandonsTaken 1 (advance f .abandon s)))

/-- A resync to the frame and kind carried (R64, R74). -/
def resync (f : Frame) (k : SettleKind) (s : State) : State :=
  let distance := forward s.settle.frame f
  notice .resync f false true
    (post .resync f (toByte (min Config.count8 distance)) (raise .resyncs 1 (advance f k s)))

/-- The frame and kind a MARK or STATE carries, one or more ahead of S (R73, R74, R77, R78). -/
def takeAhead (path : SettlePath) (f : Frame) (k : SettleKind) (order : FrameOrder) (s : State) : State :=
  match order, k with
  | .oneAhead, .commit => settleCommit s
  | .oneAhead, .abandon => settleAbandon path s
  | .oneAhead, .start => resync f k s
  | .farAhead, _ => resync f k s
  | .same, _ => s
  | .behind, _ => s

/-! ## Round starts (R61, R69, R71 to R75) -/

/-- What a round start carries: nothing, a valid MARK of another station, or the passage of the station's own MARK
(R17, R20). -/
inductive RoundContent
  | nothing
  | received (sender : Nat) (m : MarkFields)
  | own (m : MarkFields) (verdict : Bool)
  deriving DecidableEq, Repr

/-- The open age raised for a round start (R61). -/
def raiseOpenAge (s : State) : State :=
  s.setSettle { s.settle with openAge := saturate Config.count16 s.settle.openAge 1 }

/-- A received MARK at the settle unit of a MEMBER (R71 to R75). -/
def takeMark (sender : Nat) (m : MarkFields) (s : State) : State :=
  match compareFrame s.settle.frame m.settled with
  | .same => s
  | .behind => post .laggingMark m.settled (toByte sender) s
  | .oneAhead => takeAhead .receivedMark m.settled m.kind .oneAhead s
  | .farAhead => takeAhead .receivedMark m.settled m.kind .farAhead s

/-- The passage of the station's own MARK (R69). -/
def takeOwnMark (m : MarkFields) (verdict : Bool) (s : State) : State :=
  if verdict then
    match m.kind with
    | .commit => settleCommit s
    | .abandon => settleAbandon .ownMark s
    | .start => s
  else s

/-- The content of a round start at the settle unit of a MEMBER, after the open age has been raised (R61). -/
def takeContent (c : RoundContent) (s : State) : State :=
  match c with
  | .nothing => s
  | .received sender m => takeMark sender m s
  | .own m verdict => takeOwnMark m verdict s

/-- The last MARK value recorded in LISTEN (R48). -/
def recordMark (c : RoundContent) (s : State) : State :=
  match c with
  | .nothing => s
  | .received _ m => s.setSettle { s.settle with lastMark := some (m.settled, m.kind) }
  | .own _ _ => s

/-- A round start at the settle unit (R48, R61, R83). -/
def settleRoundStart (c : RoundContent) (s : State) : State :=
  if s.isMember then takeContent c (raiseOpenAge s) else recordMark c s

/-- A round start at the round timer: the number the MARK carries, or one more (R18). -/
def numberRoundStart (c : RoundContent) (s : State) : State :=
  let n := match c with
    | .nothing => s.roundTimer.number + 1
    | .received _ m => m.round
    | .own m _ => m.round
  s.setRoundTimer { s.roundTimer with number := n }

/-- One arrival of a round start (log entry 2). The repair requester acts in MEMBER (R150). -/
def arrive (c : RoundContent) (s : State) (a : RoundArrival) : State :=
  match a with
  | .number => numberRoundStart c s
  | .ageing => tableRoundStart s
  | .silence => captureRoundStart s
  | .waits => if s.actsAsSink then requesterRoundStart s else s
  | .settle => settleRoundStart c s

/-! ## Catch-up from STATE (R76 to R78) -/

/-- A STATE at the settle unit of a MEMBER. -/
def settleTakeState (sender : Nat) (m : StateFields) (s : State) : State :=
  if sender ≠ s.image.stationNumber && m.digest == s.digest then
    takeAhead .state m.settled m.kind (compareFrame s.settle.frame m.settled) s
  else s

end Sys2Proof.Machine
end

