-- ==== Sys2Proof/Machine/Station.lean ====
section
/-! DEFINITION. The station state logic (sections 3.2 and 3.3): reset, entry to LISTEN, joining, isolation, and the mark timer's
restart (R19). -/

namespace Sys2Proof.Machine

/-! ## Reset (R46) -/

/-- RESET asserted: every block takes its reset values; the banks' contents are fresh free values (log entry 3). -/
def applyReset (s : State) : State := .afterReset s.freeSeq true s.pending

/-- RESET (R46). -/
def execReset (s : State) : Host.Outcome State Fault Refusal := .next (applyReset s)

/-- RESET_RELEASE (R163). -/
def execResetRelease (s : State) : Host.Outcome State Fault Refusal := .next (s.setResetAsserted false)

/-! ## The mark timer (R19) -/

/-- The mark timer's value in µs: the round period plus the station guard offset (R19). -/
def Image.markTimerValue (img : Image) : Nat := img.roundPeriod * 10 + img.stationNumber * 5

/-- The mark timer restarted (R19). -/
def restartMarkTimer (s : State) : State :=
  s.setRoundTimer { s.roundTimer with markTimer := some s.image.markTimerValue }

/-! ## Entry to LISTEN (R48) -/

/-- The SELF entry (R54). -/
def selfEntry (img : Image) : MemberEntry :=
  { MemberEntry.unheard with status := .self, source := img.sourceRole, sink := img.sinkRole }

/-- The station enters LISTEN (R37, R48, R54, R60). -/
def enterListen (s : State) : State :=
  let s := s.setStation { s.station with state := .listen, silentExpiries := 0, joinCount := 0 }
  let s := s.setMember s.image.stationNumber (selfEntry s.image)
  let s := s.setBus .reset
  let s := s.setSettle { s.settle with lastMark := none }
  restartMarkTimer s

/-! ## Isolation (R52) -/

/-- The bus interface and the round timer on entry to ISOLATED (R31, R37, R52). -/
def isolateBus (s : State) : State :=
  (s.setBus { s.bus with hearing := none, driving := none, markClaim := false }).setRoundTimer
    { s.roundTimer with markTimer := none }

/-- The station enters ISOLATED: the code is recorded, ISOLATED is posted, every block gives up its work in flight (R52).
The settle unit stays whole: settled frame, kind and open age (R53, R83), and a last MARK value of LISTEN too, which is the model's
choice (DESIGN CHOICE, log entry 33). -/
def isolate (code : FaultCode) (s : State) : State :=
  let s := s.setStation { s.station with state := .isolated, fault := code }
  let s := post .isolated s.settle.frame code.code s
  overtakeEntries (isolateBanks (discardLanding (purgeResponder (isolateCapture (isolateBus s)))))

/-- The station is ISOLATED (R46). -/
def State.isIsolated (s : State) : Bool := s.station.state == .isolated

/-! ## Joining (R49 to R51) -/

/-- The entry actions of MEMBER: JOINED is posted and every block acts as at a settle with action JOIN (R51). -/
def enterMember (f : Frame) (k : SettleKind) (detail : Byte) (s : State) : State :=
  let s := s.setStation { s.station with state := .member }
  let s := s.setSettle { frame := f, kind := k, openAge := 0, lastMark := none }
  notice .join f false false (post .joined f detail s)

/-- The station joins with the frame chosen from the last MARK value and the PRESENT records (R49). -/
def joinByCount (s : State) : State :=
  let v := joiningFrame s
  enterMember v.1 v.2 0 s

/-- The station joins alone (R50; log entry 8 for the order of what it posts). -/
def joinAlone (s : State) : State :=
  let s := s.setRoundTimer { s.roundTimer with number := 0 }
  let s := s.setBus { s.bus with aligned := true, position := .tail, positionHeld := false, hearing := none }
  enterMember 0 .start 1 (forgetMembers s)

/-- A round start at the join count; the one that brings it to A+1 makes the station a MEMBER (R48, R49). -/
def countJoin (s : State) : State :=
  let n := s.station.joinCount + 1
  let s := s.setStation { s.station with joinCount := n }
  if s.image.absenceLimit + 1 ≤ n then joinByCount s else s

/-! ## Round starts (R17) -/

/-- A round start: the mark timer restarts, the round start and its content reach the blocks in the order given, and in LISTEN
the join is counted last (R17, R19, R49). -/
def roundStart (c : RoundContent) (o : Orders) (s : State) : State :=
  let s := (roundOrder o).foldl (arrive c) (restartMarkTimer s)
  if s.isListen then countJoin s else s

end Sys2Proof.Machine
end

