-- ==== Sys2Proof/Machine/Configuration.lean ====
section
/-! DEFINITION. The configuration loader: the read, the seven checks, acceptance, and the end of the start-up clear
(section 3.1, R47, R121). -/

namespace Sys2Proof.Machine

/-! ## IMAGE CHECK (R39) -/

/-- The memory did not answer: every byte reads as FFh. -/
def memorySilent (bs : List Byte) : Bool := (imageSlice bs 0 Config.imageSize).all (· == 0xFF#8)

/-- The check word in the last four bytes agrees with bytes 0 to 251 (R170, R174). -/
def imageCheckAgrees (bs : List Byte) : Bool := imageSlice bs 252 4 == toQuad (checkWord (imageSlice bs 0 252))

/-- The read got no image (R39). -/
def imageCheckFails (bs : List Byte) : Bool :=
  memorySilent bs || !imageCheckAgrees bs || imageByte bs 0 != 0x31

/-! ## The seven checks (R40 to R43) -/

/-- A number lies in its range. -/
def inRange (a b n : Nat) : Bool := a ≤ n && n ≤ b

/-- A stream entry's fields lie in their ranges; those of an entry whose valid flag is clear are not tested (R41). -/
def streamInRange (e : StreamEntry) : Bool :=
  !e.valid ||
    (e.publisher ≤ 31 && e.x0 ≤ 4095 && e.y0 ≤ 4095 && inRange 1 4096 e.width && inRange 1 4096 e.height && e.formatCode ≤ 1)

/-- Every tested field lies in its range (R41). -/
def rangeHolds (img : Image) : Bool :=
  img.stationNumber ≤ 31 && inRange 100 2000 img.roundPeriod && inRange 2 15 img.absenceLimit &&
    inRange 8 4095 img.deadline && inRange 1 255 img.silenceLimit && inRange 8 320 img.panelWidth &&
    inRange 8 240 img.panelHeight && img.tileX ≤ 4095 && img.tileY ≤ 4095 && inRange 50 1000 img.scanPeriod &&
    img.streams.all streamInRange && img.positionMap.all (fun b => b ≤ 15 || b == 255)

/-- The ids of the valid streams (R2). -/
def validStreams (img : Image) : List Nat := streamIds.filter (fun k => (img.stream k).valid)

/-- Some pair of valid streams, different ids, meets a test. -/
def somePair (img : Image) (test : StreamEntry → StreamEntry → Bool) : Bool :=
  (validStreams img).any (fun a => (validStreams img).any (fun b => a < b && test (img.stream a) (img.stream b)))

/-- Two valid streams intersect (R40). -/
def streamsOverlap (img : Image) : Bool := somePair img (fun a b => a.rect.intersects b.rect)

/-- PUBLISHER CONFLICT (R42). -/
def publisherConflict (img : Image) : Bool :=
  let named := (validStreams img).any (fun k => (img.stream k).publisher == img.stationNumber)
  somePair img (fun a b => a.publisher == b.publisher) || (img.sourceRole && !named) || (!img.sourceRole && named)

/-- POSITION MAP (R43). -/
def positionMapFails (img : Image) : Bool :=
  img.positionMap.any (fun b => b ≤ 15 && !(img.stream b).valid) ||
    (validStreams img).any (fun k => !img.positionMap.contains k)

/-- PLAN OVERFLOW (R14, R40). -/
def planOverflows (img : Image) : Bool :=
  img.sinkRole && img.coveragePlan.any (fun l => Config.rowPieces < l.length)

/-- The checks in their order: the first that fails gives the fault code (R40). -/
def imageFault (img : Image) : Option FaultCode :=
  if !rangeHolds img then some .range
  else if !img.tile.insideCanvas then some .tileOutsideCanvas
  else if (validStreams img).any (fun k => !(img.stream k).rect.insideCanvas) then some .streamOutsideCanvas
  else if streamsOverlap img then some .streamOverlap
  else if publisherConflict img then some .publisherConflict
  else if positionMapFails img then some .positionMap
  else if planOverflows img then some .planOverflow
  else none

/-- The fault the loader finds in what it read, if any (R39, R40). -/
def readFault (bs : List Byte) : Option FaultCode :=
  if imageCheckFails bs then some .imageCheck else imageFault (parseImage bs)

/-! ## Outcomes (R45, R47) -/

/-- What the loader holds after acceptance (R45). -/
def acceptedOf (bs : List Byte) : Accepted :=
  let img := parseImage bs
  { image := img, digest := wallDigest bs, plan := if img.sinkRole then img.coveragePlan else [] }

/-- The image is accepted: a sink takes its coverage table and begins the start-up clear, any other station enters LISTEN (R45,
R47, R109, R121). -/
def acceptImage (bs : List Byte) (s : State) : State :=
  let a := acceptedOf bs
  let s := s.setLoader { reading := false, accepted := some a }
  if a.image.sinkRole then
    (s.setCoverage (Coverage.ofPlan a.plan)).setBanks { s.banks with clear := .clearingBoth }
  else enterListen s

/-- The read has ended (R39, R40). -/
def endRead (bs : List Byte) (s : State) : State :=
  match readFault bs with
  | some code => isolate code (s.setLoader { s.loader with reading := false })
  | none => acceptImage bs s

/-! ## The commands -/

/-- CONFIG_READ_COMPLETE (R39); with no read in progress there is none to complete (log entry 10). -/
def execConfigReadComplete (image : List Byte) (s : State) : Host.Outcome State Fault Refusal :=
  .next (if s.station.state == .loading && s.loader.reading then endRead image s else s)

/-- START_UP_CLEAR_COMPLETE (R121); with no start-up clear in progress there is none to complete (log entry 10). -/
def execStartUpClearComplete (s : State) : Host.Outcome State Fault Refusal :=
  .next (if s.station.state == .loading && s.banks.clear == .clearingBoth then enterListen (endStartUpClear s) else s)

end Sys2Proof.Machine
end

