-- ==== Sys2Proof/Machine/WallBus.lean ====
section
/-! DEFINITION. The bus interface (02_the_wall_bus.md): positions, what the station sends, readback, the tests on what arrives,
and delivery. -/

namespace Sys2Proof.Machine

/-! ## Burst starts (R16, R17, R21) -/

/-- A burst start at the position counter of an aligned station (R16, R17; log entry 9 for a second one in the MARK
position). DESIGN CHOICE where an earlier burst of the position is still being heard (log entry 30): in a numbered position the
later burst takes its place and is judged as the second, in the MARK position the earlier one goes on. -/
def hearStart (s : State) : State :=
  match s.bus.position with
  | .tail =>
    s.setBus { s.bus with
      position := .mark, positionHeld := true, hearing := some { opensRound := true, repeated := false } }
  | .mark =>
    s.setBus { s.bus with
      hearing := some (s.bus.hearing.getD { opensRound := false, repeated := false }), positionHeld := true }
  | .numbered _ =>
    s.setBus { s.bus with
      hearing := some { opensRound := false, repeated := s.bus.positionHeld }, positionHeld := true }

/-- A burst start heard on the medium (R16, R17, R21, R48). While the station drives a burst of its own it is that burst's start
(log entry 5). To an unaligned station a later start is the candidate, even while an earlier one is still being heard (DESIGN
CHOICE, log entry 30). -/
def takeBurstStart (s : State) : State :=
  match s.station.state with
  | .loading => s
  | .isolated => s
  | .listen =>
    let s := s.setStation { s.station with silentExpiries := 0 }
    if s.bus.aligned then hearStart s
    else s.setBus { s.bus with hearing := some { opensRound := true, repeated := false } }
  | .member => if s.bus.driving.isSome then s else hearStart s

/-! ## Sending (R20, R28 to R31) -/

/-- A burst the station sends. -/
def ownBurst (s : State) (b : Body) : List Byte := encodeBurst { sender := s.image.stationNumber, body := b }

/-- The station begins a burst and hears its start (R16, R20; log entry 5). -/
def send (item : SentItem) (contested : Bool) (b : Body) (s : State) : State :=
  let d : Driving := { item := item, contested := contested, bytes := ownBurst s b }
  let s := hearStart s
  s.setBus { s.bus with driving := some d }

/-- The STATE composed at the start of the own state position (R29, R95, R126). -/
def composeState (s : State) : StateFields :=
  { digest := s.digest, source := s.image.sourceRole, sink := s.image.sinkRole, settled := s.settle.frame,
    kind := s.settle.kind, ready := readyFrame s, shown := if s.image.sinkRole then s.banks.shown else none,
    offer := if s.image.sourceRole then declaredOffer s else none }

/-- An owned stream position: the head of the publish queue, else the repair slot's segment, else silence (R30). -/
def sendStream (s : State) : State :=
  match s.publishQueue, s.responder.slot with
  | p :: _, _ => send .fresh false (.segment { piece := p, repair := none }) s
  | [], some m => send .repair false (.segment m) s
  | [], none => s

/-- The REQUEST of an entry (R141). -/
def requestOf (e : RepairEntry) : RequestFields :=
  { tag := e.tag, stream := e.stream, frame := e.frame, firstColumn := e.firstColumn, lastColumn := e.lastColumn,
    ranges := e.ranges }

/-- The entry the repair list names as pending: the COMPOSED entry that stands first (R141). -/
def pendingEntry (s : State) : Option RepairEntry := s.requester.entries.find? (fun e => e.state == .composed)

/-- An open position: the pending item of the lowest class (R28). -/
def sendOpen (s : State) : State :=
  match s.responder.replies, pendingEntry s, s.responder.slot with
  | m :: _, _, _ => send .status true (.status m) s
  | [], some e, _ => send (.request e.tag) true (.request (requestOf e)) s
  | [], none, some m => send .repair true (.segment m) s
  | [], none, none => s

/-- The start of a position: what a MEMBER sends there (R28 to R31). -/
def beginPosition (s : State) : State :=
  match s.bus.position with
  | .mark => s
  | .tail => s
  | .numbered k =>
    if k ≤ 32 then
      (if k = s.image.stationNumber + 1 then send .state false (.state (composeState s)) s else s)
    else if k ≤ 128 then
      (match s.image.mapEntry (k - 33), s.image.ownStream with
       | some a, some b => if a = b then sendStream s else s
       | _, _ => s)
    else sendOpen s

/-- The idle-medium expiry of a MEMBER's mark timer: a MARK is composed and begun at once (R20, R65). -/
def sendMark (s : State) : State :=
  let s := send (.mark (composeMark s) (composeVerdict s).2.2) true (.mark (composeMark s)) s
  s.setBus { s.bus with markClaim := true }

/-! ## Readback (R26, R32 to R35) -/

/-- The readback outcome of a burst the station sent (R32). -/
inductive Readback
  | clean
  | arbitrationLost
  | fault
  deriving DecidableEq, Repr

/-- Bytes driven against bytes heard where no arbitration is lost: any difference is a fault, and so is a burst that is heard
to end before the station has sent its own (R32; log entry 13). -/
def compareBytes : List Byte → List Byte → Readback
  | [], _ => .clean
  | _ :: _, [] => .fault
  | a :: l, b :: m => if a = b then compareBytes l m else .fault

/-- The readback outcome. In a contested position the first mismatch of the arbitration field is a recessive (1) bit driven and a
dominant (0) bit heard exactly when the field heard has the lower value (R25, R32). -/
def readback (contested : Bool) (driven heard : List Byte) : Readback :=
  match driven, heard with
  | a :: _, b :: _ => if contested && b.toNat < a.toNat then .arbitrationLost else compareBytes driven heard
  | _, _ => compareBytes driven heard

/-- The item is the station's STATE. -/
def SentItem.isState : SentItem → Bool
  | .state => true
  | _ => false

/-- The item is a MARK. -/
def SentItem.isMark : SentItem → Bool
  | .mark _ _ => true
  | _ => false

/-- A readback fault at the fault counts (R32, R34, R35). -/
def countFault (item : SentItem) (s : State) : State :=
  let s := raise .readbackFaults 1 s
  s.setBus { s.bus with
    consecutiveFaults := saturate Config.mediumFaultLimit s.bus.consecutiveFaults 1,
    collisions := if item.isState then saturate Config.collisionLimit s.bus.collisions 1 else s.bus.collisions }

/-- A readback fault, with the isolation at either limit; at both, the code is DUPLICATE NUMBER (R34, R35). -/
def takeFault (item : SentItem) (s : State) : State :=
  let s := countFault item s
  if item.isState && Config.collisionLimit ≤ s.bus.collisions then isolate .duplicateNumber s
  else if Config.mediumFaultLimit ≤ s.bus.consecutiveFaults then isolate .mediumFault s
  else s

/-- A clean readback at the fault counts; a MARK that has passed claims the MARK position no longer (R34, R35). -/
def takeClean (item : SentItem) (s : State) : State :=
  s.setBus { s.bus with
    consecutiveFaults := 0,
    collisions := if item.isState then 0 else s.bus.collisions,
    markClaim := s.bus.markClaim && !item.isMark }

/-- An arbitration loss: the item stays pending, but a MARK is dropped (R20, R26). -/
def takeLoss (item : SentItem) (s : State) : State :=
  s.setBus { s.bus with markClaim := s.bus.markClaim && !item.isMark }

/-- The outcome of the burst being driven, if there is one (R32). -/
def ownReadback (s : State) (heard : List Byte) : Option (SentItem × Readback) :=
  s.bus.driving.map (fun d => (d.item, readback d.contested d.bytes heard))

/-- The burst is over: nothing is heard or driven, and the readback outcome is counted, with the isolation it may bring
(R32 to R35). -/
def settleReadback (r : Option (SentItem × Readback)) (s : State) : State :=
  let s := s.setBus { s.bus with hearing := none, driving := none }
  match r with
  | none => s
  | some (item, .clean) => takeClean item s
  | some (item, .arbitrationLost) => takeLoss item s
  | some (item, .fault) => takeFault item s

/-- The item that passed readback. -/
def passedItem (r : Option (SentItem × Readback)) : Option SentItem :=
  match r with
  | some (item, .clean) => some item
  | _ => none

/-- A clean readback reported to the item's owner (R20, R100, R141, R158, R160). The passage of a MARK goes with its round
start. -/
def reportPassed (p : Option SentItem) (s : State) : State :=
  match p with
  | none => s
  | some (.mark _ _) => s
  | some .state => s
  | some .fresh => freshPassed s
  | some .repair => slotPassed s
  | some (.request tag) => requestPassed tag s
  | some .status => statusPassed s

/-! ## The tests on what arrives (R22, R23, R173) -/

/-- What the bus interface finds of a burst taken whole. -/
inductive Judgment
  | checkFailure
  | misplaced
  | malformed
  | valid (b : Burst)
  deriving DecidableEq, Repr

/-- The arbitration class matches the kind (R23, R25); a kind code that is none of the five matches none (R170). -/
def classFits (bs : List Byte) : Bool :=
  match kindBits bs with
  | 1 => classBits bs == 0
  | 2 => classBits bs == 4
  | 3 => classBits bs == (if segmentRepair bs then 3 else 5)
  | 4 => classBits bs == 2
  | 5 => classBits bs == 1
  | _ => false

/-- The sender is the publisher of the SEGMENT's stream in the stream table. -/
def fromPublisher (img : Image) (bs : List Byte) : Bool :=
  (img.stream (segmentStream bs)).valid && (img.stream (segmentStream bs)).publisher == senderBits bs

/-- A burst's kind and sender suit the position in which it started (R23). -/
def positionFits (img : Image) (p : Position) (bs : List Byte) : Bool :=
  match p with
  | .mark => kindBits bs == 1
  | .tail => false
  | .numbered k =>
    if k ≤ 32 then kindBits bs == 2 && senderBits bs + 1 == k
    else if k ≤ 128 then
      match img.mapEntry (k - 33) with
      | none => false
      | some a => kindBits bs == 3 && segmentStream bs == a && fromPublisher img bs
    else
      kindBits bs == 4 || kindBits bs == 5 || (kindBits bs == 3 && segmentRepair bs && fromPublisher img bs)

/-- The tests in their order: check (R22), position (R23), malformed fields (R173). -/
def judge (img : Image) (p : Position) (repeated : Bool) (bs : List Byte) : Judgment :=
  if !checkAgrees bs then .checkFailure
  else if repeated || !classFits (beforeCheck bs) || !positionFits img p (beforeCheck bs) then .misplaced
  else
    match decodeBody img bs with
    | none => .malformed
    | some b => .valid { sender := senderBits bs, body := b }

/-- What a discarded burst raises; a malformed one is counted with the misplaced (R22, R23, R173). -/
def countJudgment (j : Judgment) (s : State) : State :=
  match j with
  | .checkFailure => raise .checkFailures 1 s
  | .misplaced => raise .misplacedBursts 1 s
  | .malformed => raise .misplacedBursts 1 s
  | .valid _ => s

/-! ## Delivery (R24) -/

/-- One arrival of a STATE in MEMBER (log entry 2). -/
def stateArrive (sender : Nat) (m : StateFields) (s : State) (a : StateArrival) : State :=
  match a with
  | .record => tableTakeState sender m s
  | .catchUp => settleTakeState sender m s
  | .published => requesterTakeState sender m s

/-- A valid burst delivered in aligned LISTEN: a STATE goes to the table, and one from the own number is a duplicate; a MARK that
opened no round is recorded as the last MARK value (R24, R36, R48; log entry 9). -/
def deliverListening (b : Burst) (s : State) : State :=
  match b.body with
  | .state m => if b.sender = s.image.stationNumber then isolate .duplicateNumber s else tableTakeState b.sender m s
  | .mark m => recordMark (.received b.sender m) s
  | .segment _ => s
  | .request _ => s
  | .status _ => s

/-- A valid burst delivered in MEMBER (R24). The round timer and the settle unit take a MARK with the round start it opens (R17,
R18, R71); one that opened none changes neither (log entry 9). -/
def deliverMember (b : Burst) (o : Orders) (s : State) : State :=
  match b.body with
  | .mark _ => s
  | .state m => (stateOrder o).foldl (stateArrive b.sender m) s
  | .segment m => takeSegment m s
  | .request q => takeRequest b.sender q s
  | .status m => if s.image.sinkRole then takeStatus b.sender m s else s

/-- Delivery of what the bus interface judged, at the end of the burst (R24). -/
def deliver (j : Judgment) (o : Orders) (s : State) : State :=
  match j with
  | .valid b => if s.isMember then deliverMember b o s else deliverListening b s
  | .checkFailure => s
  | .misplaced => s
  | .malformed => s

/-- The content of the round start a burst brings: the passage of the station's own MARK, else a valid MARK heard, else nothing
(R17, R20). -/
def roundContent (passed : Option SentItem) (j : Judgment) : RoundContent :=
  match passed with
  | some (.mark m v) => .own m v
  | _ =>
    match j with
    | .valid { sender := k, body := .mark m } => .received k m
    | _ => .nothing

/-- The report to the item's owner and the delivery of the burst heard, in the order given (log entry 2). -/
def reportAndDeliver (passed : Option SentItem) (j : Judgment) (o : Orders) (s : State) : State :=
  if o.reportFirst then deliver j o (reportPassed passed s) else reportPassed passed (deliver j o s)

/-- A burst whose readback has been counted is judged, and makes a round start or is delivered (R17, R22 to R24). -/
def concludeBurst (h : Hearing) (passed : Option SentItem) (j : Judgment) (o : Orders) (s : State) : State :=
  let s := countJudgment j s
  if h.opensRound then roundStart (roundContent passed j) o s else reportAndDeliver passed j o s

/-- The end of a burst at a station that is on the bus: taken whole, or cut off at its position's end (R16, R22). A readback
fault that isolates the station leaves nothing to take (R53). -/
def endBurst (h : Hearing) (cut : Bool) (heard : List Byte) (o : Orders) (s : State) : State :=
  let r := ownReadback s heard
  let j := if cut then Judgment.checkFailure else judge s.image s.bus.position h.repeated heard
  let s := settleReadback r s
  if s.isIsolated then s else concludeBurst h (passedItem r) j o s

/-! ## Unaligned LISTEN (R21) -/

/-- A candidate is a valid MARK. -/
def candidateMark (s : State) (heard : List Byte) : Option (Nat × MarkFields) :=
  match judge s.image .mark false heard with
  | .valid { sender := k, body := .mark m } => some (k, m)
  | _ => none

/-- The end of a candidate: a valid MARK aligns the station, and its end is the first round start; anything else is dropped
uncounted (R21). -/
def endCandidate (heard : List Byte) (o : Orders) (s : State) : State :=
  let s := s.setBus { s.bus with hearing := none }
  match candidateMark s heard with
  | none => s
  | some (k, m) =>
    roundStart (.received k m) o (s.setBus { s.bus with aligned := true, position := .mark, positionHeld := true })

/-- The end of the burst being heard; with none being heard there is no burst to end (R22; log entry 10). -/
def takeBurst (heard : List Byte) (o : Orders) (s : State) : State :=
  match s.bus.hearing with
  | none => s
  | some h =>
    if s.onTheBus then endBurst h false heard o s
    else if s.isListen then endCandidate heard o s
    else s

/-! ## Position ends (R15, R16) -/

/-- The position after this one (R15, R16). -/
def Position.next : Position → Position
  | .mark => .numbered 1
  | .numbered k => if k < 160 then .numbered (k + 1) else .tail
  | .tail => .tail

/-- A burst still being heard at the end of its position is cut off (R16). -/
def cutBurst (heard : List Byte) (o : Orders) (s : State) : State :=
  match s.bus.hearing with
  | some h => endBurst h true heard o s
  | none => s

/-- The position counter advances, and a MEMBER begins what it sends there (R16, R28 to R30). -/
def advancePosition (s : State) : State :=
  let s := s.setBus { s.bus with position := s.bus.position.next, positionHeld := false, hearing := none, driving := none }
  if s.isMember then beginPosition s else s

/-- The end of a position at a station that counts positions (R16). -/
def endPosition (heard : List Byte) (o : Orders) (s : State) : State :=
  match s.bus.position with
  | .tail => s
  | _ =>
    let s := cutBurst heard o s
    if s.isIsolated then s else advancePosition s

/-- A position end (R16). The tail has none, and an unaligned station counts no positions: there it only ends a candidate, as the
end of the MARK position it might have opened (R21; log entry 19). -/
def takePositionEnd (heard : List Byte) (o : Orders) (s : State) : State :=
  if s.onTheBus then endPosition heard o s
  else if s.isListen then s.setBus { s.bus with hearing := none }
  else s

/-! ## The mark timer (R19, R20, R50) -/

/-- An expiry in LISTEN: the timer restarts and the expiry is counted; the fourth joins alone (R19, R48, R50). -/
def expireListening (s : State) : State :=
  let s := restartMarkTimer s
  let n := saturate Config.silentExpiryLimit s.station.silentExpiries 1
  let s := s.setStation { s.station with silentExpiries := n }
  if Config.silentExpiryLimit ≤ n then joinAlone s else s

/-- An expiry in MEMBER: with the medium idle a MARK is begun; the timer runs again from the next round start (R19, R20; log
entry 14). -/
def expireMember (s : State) : State :=
  let s := s.setRoundTimer { s.roundTimer with markTimer := none }
  if s.bus.hearing.isSome then s else sendMark s

/-- An expiry of the mark timer; a timer that is not running does not expire (R19; log entry 10). -/
def expireMarkTimer (s : State) : State :=
  if s.roundTimer.markTimer.isNone then s
  else if s.isListen then expireListening s
  else if s.isMember then expireMember s
  else s

/-! ## What a round start would bring (log entry 1) -/

/-- The end of the burst heard is a round start (R17, R21). -/
def roundStartComes (s : State) (heard : List Byte) : Bool :=
  match s.bus.hearing with
  | none => false
  | some h =>
    if s.onTheBus then h.opensRound && !(settleReadback (ownReadback s heard) s).isIsolated
    else s.isListen && (candidateMark s heard).isSome

/-- The next round start brings some PRESENT entry's count to A (R57). -/
def absenceDue (s : State) : Bool := s.members.any (MemberEntry.agesOut s.image.absenceLimit)

/-- The next round start brings the join count to A+1 (R49). -/
def joinDue (s : State) : Bool := s.isListen && s.image.absenceLimit ≤ s.station.joinCount

/-- The next round start brings some entry's back-off to 0 (R146). -/
def backoffDue (s : State) : Bool := s.actsAsSink && s.requester.entries.any RepairEntry.backoffEnds

/-- The next round start brings some SENT entry's wait count to 6 (R147). -/
def timeoutDue (s : State) : Bool := s.actsAsSink && s.requester.entries.any RepairEntry.timesOut

/-- The burst heard is, for the station that drives it, a readback fault (R32). -/
def faultComes (s : State) (heard : List Byte) : Option SentItem :=
  match s.bus.hearing, ownReadback s heard with
  | some _, some (item, .fault) => if s.isMember then some item else none
  | _, _ => none

/-- The fault isolates with DUPLICATE NUMBER (R35). -/
def collisionDue (item : SentItem) (s : State) : Bool :=
  item.isState && Config.collisionLimit ≤ s.bus.collisions + 1

/-- The fault isolates with MEDIUM FAULT (R34). -/
def mediumFaultDue (item : SentItem) (s : State) : Bool :=
  !collisionDue item s && Config.mediumFaultLimit ≤ s.bus.consecutiveFaults + 1

/-! ## The commands -/

/-- MARK_TIMER_EXPIRY (R20). -/
def execMarkTimerExpiry (s : State) : Host.Outcome State Fault Refusal := .next (expireMarkTimer s)

/-- JOIN_ALONE (R50): the expiry of the mark timer that is the fourth silent one in LISTEN (log entry 1). -/
def execJoinAlone (s : State) : Host.Outcome State Fault Refusal :=
  .next (if s.isListen && s.roundTimer.markTimer.isSome && Config.silentExpiryLimit ≤ s.station.silentExpiries + 1
    then expireListening s else s)

/-- BURST_START (R17). -/
def execBurstStart (s : State) : Host.Outcome State Fault Refusal := .next (takeBurstStart s)

/-- POSITION_END (R16). -/
def execPositionEnd (heard : List Byte) (o : Orders) (s : State) : Host.Outcome State Fault Refusal :=
  .next (takePositionEnd heard o s)

/-- BURST_TAKEN (R22). -/
def execBurstTaken (heard : List Byte) (o : Orders) (s : State) : Host.Outcome State Fault Refusal :=
  .next (takeBurst heard o s)

/-- MEDIUM_FAULT (R34): the readback fault that brings the consecutive count to 8 (log entry 1). -/
def execMediumFault (heard : List Byte) (s : State) : Host.Outcome State Fault Refusal :=
  .next (match faultComes s heard with
    | some item => if mediumFaultDue item s then settleReadback (ownReadback s heard) s else s
    | none => s)

/-- DUPLICATE_NUMBER (R35): the readback fault of the own STATE that brings the collision count to 2 (log entry 1). -/
def execDuplicateNumber (heard : List Byte) (s : State) : Host.Outcome State Fault Refusal :=
  .next (match faultComes s heard with
    | some item => if collisionDue item s then settleReadback (ownReadback s heard) s else s
    | none => s)

/-- MEMBER_ABSENT (R57): the round start that brings a PRESENT entry's count to A (log entry 1). -/
def execMemberAbsent (heard : List Byte) (o : Orders) (s : State) : Host.Outcome State Fault Refusal :=
  .next (if roundStartComes s heard && absenceDue s then takeBurst heard o s else s)

/-- JOIN_BY_COUNT (R49): the round start that brings the join count to A+1 (log entry 1). -/
def execJoinByCount (heard : List Byte) (o : Orders) (s : State) : Host.Outcome State Fault Refusal :=
  .next (if roundStartComes s heard && joinDue s then takeBurst heard o s else s)

/-- INPUT_LOST (R86): the round start that brings the silence count to the input silence limit (log entry 1). -/
def execInputLost (heard : List Byte) (o : Orders) (s : State) : Host.Outcome State Fault Refusal :=
  .next (if roundStartComes s heard && inputLossDue s then takeBurst heard o s else s)

/-- BACKOFF_END (R146): the round start that brings an entry's back-off to 0 (log entry 1). -/
def execBackoffEnd (heard : List Byte) (o : Orders) (s : State) : Host.Outcome State Fault Refusal :=
  .next (if roundStartComes s heard && backoffDue s then takeBurst heard o s else s)

/-- REPAIR_TIMEOUT (R147): the round start that brings a SENT entry's wait count to 6 (log entry 1). -/
def execRepairTimeout (heard : List Byte) (o : Orders) (s : State) : Host.Outcome State Fault Refusal :=
  .next (if roundStartComes s heard && timeoutDue s then takeBurst heard o s else s)

end Sys2Proof.Machine
end

