-- ==== Sys2Proof/Machine/Dispatch.lean ====
section
/-! DEFINITION. One arm per command, each a call of its meaning. -/

namespace Sys2Proof.Machine

def exec (i : Instr) (s : State) : Host.Outcome State Fault Refusal :=
  match i with
  | .reset => Sys2Proof.Machine.execReset s
  | .configReadComplete image => Sys2Proof.Machine.execConfigReadComplete image s
  | .startUpClearComplete => Sys2Proof.Machine.execStartUpClearComplete s
  | .markTimerExpiry => Sys2Proof.Machine.execMarkTimerExpiry s
  | .joinAlone => Sys2Proof.Machine.execJoinAlone s
  | .burstStart => Sys2Proof.Machine.execBurstStart s
  | .positionEnd heard orders => Sys2Proof.Machine.execPositionEnd heard orders s
  | .burstTaken heard orders => Sys2Proof.Machine.execBurstTaken heard orders s
  | .mediumFault heard => Sys2Proof.Machine.execMediumFault heard s
  | .duplicateNumber heard => Sys2Proof.Machine.execDuplicateNumber heard s
  | .memberAbsent heard orders => Sys2Proof.Machine.execMemberAbsent heard orders s
  | .joinByCount heard orders => Sys2Proof.Machine.execJoinByCount heard orders s
  | .frameStart => Sys2Proof.Machine.execFrameStart s
  | .rowCompletion pixels => Sys2Proof.Machine.execRowCompletion pixels s
  | .inputLost heard orders => Sys2Proof.Machine.execInputLost heard orders s
  | .placementComplete => Sys2Proof.Machine.execPlacementComplete s
  | .bankClearComplete => Sys2Proof.Machine.execBankClearComplete s
  | .scanStart => Sys2Proof.Machine.execScanStart s
  | .scanEnd => Sys2Proof.Machine.execScanEnd s
  | .backoffEnd heard orders => Sys2Proof.Machine.execBackoffEnd heard orders s
  | .repairTimeout heard orders => Sys2Proof.Machine.execRepairTimeout heard orders s
  | .readSummary => Sys2Proof.Machine.execReadSummary s
  | .readMembers => Sys2Proof.Machine.execReadMembers s
  | .readCounters => Sys2Proof.Machine.execReadCounters s
  | .clearCounters => Sys2Proof.Machine.execClearCounters s
  | .readEvent => Sys2Proof.Machine.execReadEvent s
  | .unknownCommand code => Sys2Proof.Machine.execUnknownCommand code s
  | .transactionComplete => Sys2Proof.Machine.execTransactionComplete s
  | .transactionCutShort => Sys2Proof.Machine.execTransactionCutShort s
  | .resetRelease => Sys2Proof.Machine.execResetRelease s

end Sys2Proof.Machine
end

