-- ==== Sys2Proof/Safety.lean ====
section
/-! DEFINITION. What claims about the station use: the capacities, the invariants of its blocks, and what counts as a frame. -/

namespace Sys2Proof.Machine

/-! ## Capacities (00_scope, "Fixed numbers") -/

/-- Every queue, list, ring, record and count stays within what the manual gives it (00_scope; R34, R35, R48, R54, R61, R85, R87,
R151, R165, R166), and the tables keep their size. The last four fields are what keeps the row count and the join count so: a
source's own stream has a row, and a station in LOADING has counted nothing yet. -/
structure WithinCapacity (s : State) : Prop where
  ring : s.ring.length ≤ 1024
  publishQueue : s.publishQueue.length ≤ 64
  landing : s.landing.length ≤ 16
  repairList : s.requester.entries.length ≤ 4
  repairQueue : s.responder.queue.length ≤ 8
  replies : s.responder.replies.length ≤ 4
  events : s.port.events.length ≤ 32
  dropped : s.port.dropped ≤ 255
  counters : s.port.counters.length = 22 ∧ ∀ n ∈ s.port.counters, n ≤ 65535
  openAge : s.settle.openAge ≤ 65535
  silence : s.capture.silence ≤ 255
  consecutiveFaults : s.bus.consecutiveFaults ≤ 8
  collisions : s.bus.collisions ≤ 2
  silentExpiries : s.station.silentExpiries ≤ 4
  members : s.members.length = 32 ∧ ∀ e ∈ s.members, e.rounds ≤ 15
  piecesServed : ∀ r ∈ s.responder.queue, r.sent ≤ 4095 ∧ r.gone ≤ 4095
  piecesAnswered : ∀ m ∈ s.responder.replies, m.sent ≤ 4095 ∧ m.gone ≤ 4095
  joinCount : s.station.joinCount ≤ s.image.absenceLimit + 1
  joinCountListening : s.station.state = .listen → s.station.joinCount ≤ s.image.absenceLimit
  streamHeight : s.image.sourceRole = true → 1 ≤ (ownEntry s).height
  rowCount : s.capture.rowCount ≤ (ownEntry s).height
  rowCountCapturing : s.capture.state = .capturing → s.capture.rowCount < (ownEntry s).height
  loading : s.station.state = .loading →
    s.station.joinCount = 0 ∧ s.capture.rowCount = 0 ∧ s.capture.state ≠ .capturing

/-! ## What the configuration checks ask (R40 to R43) -/

/-- RANGE: every field lies in its range; those of a stream entry whose valid flag is clear are not asked for (R41). -/
def FieldsInRange (img : Image) : Prop :=
  img.stationNumber ≤ 31 ∧ (100 ≤ img.roundPeriod ∧ img.roundPeriod ≤ 2000) ∧ (2 ≤ img.absenceLimit ∧ img.absenceLimit ≤ 15) ∧
  (8 ≤ img.deadline ∧ img.deadline ≤ 4095) ∧ (1 ≤ img.silenceLimit ∧ img.silenceLimit ≤ 255) ∧
  (8 ≤ img.panelWidth ∧ img.panelWidth ≤ 320) ∧ (8 ≤ img.panelHeight ∧ img.panelHeight ≤ 240) ∧
  (img.tileX ≤ 4095 ∧ img.tileY ≤ 4095) ∧ (50 ≤ img.scanPeriod ∧ img.scanPeriod ≤ 1000) ∧
  (∀ k, k < 16 → (img.stream k).valid = true →
    (img.stream k).publisher ≤ 31 ∧ (img.stream k).x0 ≤ 4095 ∧ (img.stream k).y0 ≤ 4095 ∧
    (1 ≤ (img.stream k).width ∧ (img.stream k).width ≤ 4096) ∧ (1 ≤ (img.stream k).height ∧ (img.stream k).height ≤ 4096) ∧
    (img.stream k).formatCode ≤ 1) ∧
  (∀ b ∈ img.positionMap, b ≤ 15 ∨ b = 255)

/-- TILE OUTSIDE CANVAS: the tile lies inside the canvas (R40). -/
def TileInsideCanvas (img : Image) : Prop :=
  img.tileX + img.tileWidth ≤ 4096 ∧ img.tileY + img.tileHeight ≤ 4096

/-- STREAM OUTSIDE CANVAS: every valid stream lies inside the canvas (R40). -/
def StreamsInsideCanvas (img : Image) : Prop :=
  ∀ k, k < 16 → (img.stream k).valid = true →
    (img.stream k).x0 + (img.stream k).width ≤ 4096 ∧ (img.stream k).y0 + (img.stream k).height ≤ 4096

/-- A canvas pixel lies in a stream's rectangle (R1, R2). -/
def StreamEntry.HasPixel (e : StreamEntry) (x y : Nat) : Prop :=
  e.x0 ≤ x ∧ x < e.x0 + e.width ∧ e.y0 ≤ y ∧ y < e.y0 + e.height

/-- STREAM OVERLAP: no canvas pixel lies in two valid streams (R40). -/
def StreamsDisjoint (img : Image) : Prop :=
  ∀ a b, a < 16 → b < 16 → a ≠ b → (img.stream a).valid = true → (img.stream b).valid = true →
    ¬ ∃ x y, (img.stream a).HasPixel x y ∧ (img.stream b).HasPixel x y

/-- PUBLISHER CONFLICT: no two valid streams name one publisher, and a valid stream names this station exactly when it has the
source role (R42). -/
def PublishersAgree (img : Image) : Prop :=
  (∀ a b, a < 16 → b < 16 → a ≠ b → (img.stream a).valid = true → (img.stream b).valid = true →
    (img.stream a).publisher ≠ (img.stream b).publisher) ∧
  (img.sourceRole = true ↔ ∃ k, k < 16 ∧ (img.stream k).valid = true ∧ (img.stream k).publisher = img.stationNumber)

/-- POSITION MAP: every entry that is a stream id names a valid stream, and every valid stream is named (R43). -/
def MapNamesStreams (img : Image) : Prop :=
  (∀ b ∈ img.positionMap, b ≤ 15 → (img.stream b).valid = true) ∧
  (∀ k, k < 16 → (img.stream k).valid = true → k ∈ img.positionMap)

/-- PLAN OVERFLOW: no tile row of a sink lists more than 8 pieces (R14, R40). -/
def PlanFits (img : Image) : Prop := img.sinkRole = true → ∀ l ∈ img.coveragePlan, l.length ≤ 8

/-- The seven checks in the order of R40, each with its fault code and what it asks of the image. -/
def imageChecks : List (FaultCode × (Image → Prop)) :=
  [(.range, FieldsInRange), (.tileOutsideCanvas, TileInsideCanvas), (.streamOutsideCanvas, StreamsInsideCanvas),
   (.streamOverlap, StreamsDisjoint), (.publisherConflict, PublishersAgree), (.positionMap, MapNamesStreams),
   (.planOverflow, PlanFits)]

/-! ## Banks -/

/-- Both banks are in canonical form. -/
def BanksCanonical (s : State) : Prop := s.banks.bank0.wf = true ∧ s.banks.bank1.wf = true

/-- A bank by its name. -/
def BankControl.named (c : BankControl) : BankName → Bank
  | .bank0 => c.bank0
  | .bank1 => c.bank1

/-- Placement is held back where the manual holds it back, and the sink's work belongs to MEMBER (R114, R123, R124, R134). -/
structure PlacementHeldBack (s : State) : Prop where
  outsideMember : s.station.state ≠ .member → s.landing = [] ∧ s.engine = .idle ∧ s.banks.swapPending = none
  reading : s.station.state = .loading → s.loader.reading = true → s.banks.clear = .idle
  clearing : match s.station.state with
    | .loading => s.banks.clear ≠ .clearingBack
    | .listen => s.banks.clear = .idle
    | .member => s.banks.clear ≠ .clearingBoth
    | .isolated => s.banks.clear = .idle
  swapping : s.banks.swapPending ≠ none → s.banks.clear = .idle ∧ s.engine = .idle
  placing : s.engine = .placing → s.banks.clear = .idle ∧ s.landing ≠ []

/-! ## Bus -/

/-- A station drives the medium as a MEMBER only, a burst it hears; the position counter is held at TAIL while unaligned, and no
burst is heard in the tail of an aligned station (R16, R17, R21, R31); the mark timer is stopped in LOADING and ISOLATED and
runs in LISTEN (R19). -/
structure BusInOrder (s : State) : Prop where
  drivesAsMember : s.bus.driving ≠ none → s.station.state = .member ∧ s.bus.hearing ≠ none
  unaligned : s.bus.aligned = false → s.bus.position = .tail
  tailSilent : s.bus.aligned = true → s.bus.position = .tail → s.bus.hearing = none
  memberAligned : s.station.state = .member → s.bus.aligned = true
  deaf : s.station.state = .loading ∨ s.station.state = .isolated → s.bus.hearing = none
  numbered : ∀ k, s.bus.position = .numbered k → 1 ≤ k ∧ k ≤ 160
  timerStopped : s.station.state = .loading ∨ s.station.state = .isolated → s.roundTimer.markTimer = none
  timerRuns : s.station.state = .listen → s.roundTimer.markTimer ≠ none

/-! ## Capture -/

/-- The capture states mean what R87 says of the offer, the published flag what R94 says, and only a MEMBER captures (R96). -/
structure OfferInOrder (s : State) : Prop where
  dormant : s.capture.offer = none ↔ s.capture.state = .dormant
  published : s.capture.published = true →
    s.capture.state = .holding ∧ s.publishQueue = []
  capturing : s.capture.state = .capturing → s.capture.disposition = .taken
  waiting : s.capture.state = .waiting → s.capture.rowCount = 0
  outsideMember : s.station.state ≠ .member → s.capture.state = .dormant

/-! ## Coverage table -/

/-- Clear flags of stream `k` over all rows (R109). -/
def clearFlags (rows : List (List CoverageEntry)) (k : Nat) : Nat :=
  (rows.map (fun l => l.countP (fun e => e.expected.stream == k && !e.claimed))).sum

/-- Expected pieces of stream `k` over all rows. -/
def expectedFlags (rows : List (List CoverageEntry)) (k : Nat) : Nat :=
  (rows.map (fun l => l.countP (fun e => e.expected.stream == k))).sum

/-- A row lists no piece twice (R13). -/
def PiecesDistinct (l : List CoverageEntry) : Prop :=
  (l.map (fun e => (e.expected.stream, e.expected.index))).Nodup

/-- Each outstanding count equals the number of clear flags of its stream, each expected total the number of its entries, and no
row lists a piece twice (R13, R109). -/
structure CoverageCounts (c : Coverage) : Prop where
  sized : c.outstanding.length = 16 ∧ c.totals.length = 16
  outstanding : ∀ k, k < 16 → c.outstanding.getD k 0 = clearFlags c.rows k
  totals : ∀ k, k < 16 → c.totals.getD k 0 = expectedFlags c.rows k
  distinct : ∀ l ∈ c.rows, PiecesDistinct l
  streams : ∀ l ∈ c.rows, ∀ e ∈ l, e.expected.stream < 16

/-- `d` is the table `c` opened for frame `f`: every flag clear, every outstanding count at its total (R110). -/
structure OpenedFor (c d : Coverage) (f : Frame) : Prop where
  rows : d.rows = c.rows.map (fun l => l.map (fun e => { e with claimed := false }))
  counts : d.outstanding = c.totals ∧ d.totals = c.totals
  openFor : d.openFor = some f

/-! ## Landing queue (R110, R112) -/

/-- The landing queue holds no piece twice, each of its pieces is of the open frame and has its claimed flag set, and only a MEMBER
with the sink role has any; the table of such a station is open for the open frame (R110, R112). -/
structure LandingInOrder (s : State) : Prop where
  pieces : (s.landing.map (fun p => (p.stream, p.row, p.index))).Nodup
  claimed : ∀ p ∈ s.landing, ∃ e, coverageEntry s.image s.coverage p.stream p.row p.index = some e ∧ e.claimed = true
  frame : ∀ p ∈ s.landing, p.frame = s.settle.frame + 1
  sink : s.landing ≠ [] → s.isMember = true ∧ s.image.sinkRole = true
  openFor : s.isMember = true → s.image.sinkRole = true → s.coverage.openFor = some (s.settle.frame + 1)

/-! ## Retain ring (R97) -/

/-- The retain ring stands in capture order, by row and then by index, so that no two entries share both; it holds rows produced
already, and is empty outside MEMBER and before a capture begins (R88, R97). -/
structure RingInOrder (s : State) : Prop where
  order : s.ring.Pairwise (fun a b => a.row < b.row ∨ (a.row = b.row ∧ a.index < b.index))
  produced : ∀ e ∈ s.ring, e.row < (ownEntry s).y0 + s.capture.rowCount
  outsideMember : s.isMember = false → s.ring = []
  waiting : s.capture.state = .waiting → s.ring = []

/-! ## Completeness (R124, R125) -/

/-- Stream `k` is treated as NONE for frame `f` (the table of R125). -/
def TreatedAsNone (s : State) (f : Frame) (k : Nat) : Prop :=
  ((s.image.stream k).publisher = s.image.stationNumber ∧ s.capture.offer = none) ∨
  ((s.image.stream k).publisher ≠ s.image.stationNumber ∧
    ((s.member (s.image.stream k).publisher).status ≠ .present ∨
      ∃ r, (s.member (s.image.stream k).publisher).record = some r ∧ r.settled = f - 1 ∧
        ∀ o, r.offer = some o → o.stream ≠ k ∨ o.frame = none))

/-- Stream `k` is awaited for frame `f`, unless it is fully claimed (the table of R125). -/
def Awaited (s : State) (f : Frame) (k : Nat) : Prop :=
  ((s.image.stream k).publisher = s.image.stationNumber ∧ s.capture.offer ≠ none) ∨
  ((s.image.stream k).publisher ≠ s.image.stationNumber ∧
    (s.member (s.image.stream k).publisher).status = .present ∧
      ∃ r o, (s.member (s.image.stream k).publisher).record = some r ∧ r.settled = f - 1 ∧ r.offer = some o ∧
        o.stream = k ∧ o.frame = some f)

/-- The sink is complete for frame `f` (R124, R125). -/
structure Complete (s : State) (f : Frame) : Prop where
  sink : s.image.sinkRole = true
  backFrame : s.banks.backFrame = some f
  clear : s.banks.clear = .idle
  noSwap : s.banks.swapPending = none
  landing : s.landing = []
  engine : s.engine = .idle
  satisfied : ∀ k, k < 16 → s.image.contributes k = true → s.coverage.outstanding.getD k 0 = 0 ∨ TreatedAsNone s f k

/-! ## Published flag (R94, R137, R138) -/

/-- From `s` to `t`, both MEMBER, the capture unit has tested the published flag's conditions once: the flag is set when they hold,
and at the moment it is set the repair requester of a sink sets the mark of the own stream, if that stream contributes, and runs a
gap scan. -/
structure TestsPublished (s t : State) : Prop where
  flag : t.capture.published = true ↔
    s.capture.published = true ∨ (t.capture.offer ≠ none ∧ t.capture.state = .holding ∧ t.publishQueue = [])
  untold : t.capture.published = s.capture.published ∨ s.image.sinkRole = false → t.requester = s.requester
  told : s.capture.published = false → t.capture.published = true → s.image.sinkRole = true →
    ∀ a, s.image.ownStream = some a → t.requester =
      (gapScan (if s.image.contributes a = true then
          s.setRequester { s.requester with published := s.requester.published.set a true }
        else s)).requester

/-! ## Gap scans (R111, R138 to R140) -/

/-- Canvas row `y` lies in the tile and holds an unclaimed expected piece of stream `k` (R111). -/
def HasGap (s : State) (k y : Nat) : Prop :=
  s.image.tileY ≤ y ∧ ∃ e ∈ s.coverage.rows.getD (y - s.image.tileY) [], e.expected.stream = k ∧ e.claimed = false

/-- A list of ranges gathers the rows that meet `rows` as R139 has it: runs of consecutive rows in ascending order, cut after 255
rows and nowhere else. -/
structure GathersRows (rows : Nat → Prop) (l : List RowRange) : Prop where
  covers : ∀ y, rows y ↔ ∃ r ∈ l, r.first ≤ y ∧ y < r.first + r.count
  ascending : l.Pairwise (fun a b => a.first + a.count ≤ b.first)
  counts : ∀ r ∈ l, 1 ≤ r.count ∧ r.count ≤ 255
  cut : ∀ r ∈ l, ∀ q ∈ l, r.first + r.count = q.first → r.count = 255

/-- The conditions of R138 for an entry for stream `k`. -/
structure Wanted (s : State) (k : Nat) : Prop where
  published : s.requester.published.getD k false = true
  publisher : (s.image.stream k).publisher = s.image.stationNumber ∨ (s.member (s.image.stream k).publisher).status = .present
  gap : ∃ y, HasGap s k y
  idle : ∀ e ∈ s.requester.entries, e.stream ≠ k
  repairable : s.requester.unrepairable.getD k false = false
  room : s.requester.entries.length < 4

/-- The tag of a new entry: the first value after the last one used, modulo 8, that no active entry holds (R140). -/
def IsNextTag (r : Requester) (tag : Nat) : Prop :=
  ∃ i, 1 ≤ i ∧ i ≤ 8 ∧ tag = (r.lastTag + i) % 8 ∧ (∀ e ∈ r.entries, e.tag ≠ tag) ∧
    ∀ j, 1 ≤ j → j < i → ∃ e ∈ r.entries, e.tag = (r.lastTag + j) % 8

/-- The entry that a gap scan composes for stream `k` (R138 to R140). -/
structure ComposedFor (s : State) (k : Nat) (e : RepairEntry) : Prop where
  tag : IsNextTag s.requester e.tag
  stream : e.stream = k
  frame : e.frame = s.settle.frame + 1
  firstColumn : e.firstColumn = max (s.image.stream k).x0 s.image.tileX
  lastColumn : e.lastColumn =
    min ((s.image.stream k).x0 + (s.image.stream k).width - 1) (s.image.tileX + s.image.tileWidth - 1)
  ranges : ∃ l, GathersRows (HasGap s k) l ∧ e.ranges = l.take 4
  fresh : e.state = .composed ∧ e.attempts = 1 ∧ e.wait = 0 ∧ e.backoff = 0 ∧ e.code = none

/-! ## Repair list -/

/-- The repair list holds active entries only, at most one per stream, with distinct tags 0 to 7, attempts 1 to 3 and counts in
range; a back-off runs only while SENT below the third attempt (R136, R146). -/
structure RepairListInOrder (r : Requester) : Prop where
  tags : (r.entries.map (·.tag)).Nodup
  streams : (r.entries.map (·.stream)).Nodup
  size : r.entries.length ≤ 4
  lastTag : r.lastTag < 8
  entry : ∀ e ∈ r.entries,
    e.tag < 8 ∧ e.state ≠ .closed ∧ 1 ≤ e.attempts ∧ e.attempts ≤ 3 ∧ e.wait < 6 ∧ e.backoff ≤ 4 ∧ e.code = none ∧
      (0 < e.backoff → e.state = .sent ∧ e.attempts < 3)

/-! ## Frames of claims -/

/-- The fields of the state. -/
inductive Field
  | loader
  | station
  | bus
  | roundTimer
  | members
  | settle
  | capture
  | ring
  | publishQueue
  | coverage
  | landing
  | engine
  | banks
  | scan
  | requester
  | responder
  | port
  | resetAsserted
  | freeSeq
  | pending
  deriving DecidableEq, Repr

/-- Two states agree on a field. -/
def Field.same : Field → State → State → Prop
  | .loader, s, t => t.loader = s.loader
  | .station, s, t => t.station = s.station
  | .bus, s, t => t.bus = s.bus
  | .roundTimer, s, t => t.roundTimer = s.roundTimer
  | .members, s, t => t.members = s.members
  | .settle, s, t => t.settle = s.settle
  | .capture, s, t => t.capture = s.capture
  | .ring, s, t => t.ring = s.ring
  | .publishQueue, s, t => t.publishQueue = s.publishQueue
  | .coverage, s, t => t.coverage = s.coverage
  | .landing, s, t => t.landing = s.landing
  | .engine, s, t => t.engine = s.engine
  | .banks, s, t => t.banks = s.banks
  | .scan, s, t => t.scan = s.scan
  | .requester, s, t => t.requester = s.requester
  | .responder, s, t => t.responder = s.responder
  | .port, s, t => t.port = s.port
  | .resetAsserted, s, t => t.resetAsserted = s.resetAsserted
  | .freeSeq, s, t => t.freeSeq = s.freeSeq
  | .pending, s, t => t.pending = s.pending

/-- From `s` to `t`, no field outside `fs` has changed. -/
def OnlyWrites (fs : List Field) (s t : State) : Prop := ∀ f, f ∉ fs → f.same s t

/-! ## Bursts that stations send -/

/-- What the fields of a burst must be for it to be one the wall's stations send: numbers in the widths of R170 to R172, a SEGMENT
as R5, R4 and R2 have it, and a REQUEST of 1 to 4 ranges. -/
def Burst.Sendable (b : Burst) (img : Image) : Prop :=
  b.sender < 32 ∧
  match b.body with
  | .mark _ => True
  | .state m => (m.sink = false → m.ready = none ∧ m.shown = none) ∧ m.offer.isSome = m.source ∧
      ∀ o, m.offer = some o → o.stream < 16
  | .segment m => m.piece.stream < 16 ∧ m.piece.row < 4096 ∧ m.piece.index < 16 ∧
      img.wellFormedIdentity m.piece.stream m.piece.row m.piece.index = true ∧
      m.piece.count = (img.stream m.piece.stream).piecePixels m.piece.index ∧
      1 ≤ m.piece.count ∧ m.piece.count ≤ 256 ∧
      m.piece.format = (img.stream m.piece.stream).format ∧
      (if m.piece.fill then m.piece.payload = []
        else m.piece.payload.length = payloadLength m.piece.format m.piece.count) ∧
      ∀ r, m.repair = some r → r.requester < 32 ∧ r.tag < 8
  | .request m => m.tag < 8 ∧ m.stream < 16 ∧ m.firstColumn < 4096 ∧ m.lastColumn < 4096 ∧ 1 ≤ m.ranges.length ∧
      m.ranges.length ≤ 4 ∧ ∀ r ∈ m.ranges, r.first < 4096 ∧ r.count < 256
  | .status m => m.requester < 32 ∧ m.tag < 8 ∧ m.sent < 65536 ∧ m.gone < 65536

/-! ## Bursts that end -/

/-- The burst heard or driven is over, with nothing else changed. -/
def afterBurst (s : State) : State := s.setBus { s.bus with hearing := none, driving := none }

/-- A station on the bus hears, and does not drive, a burst whose bytes are `heard`; `opens` says that its start opened the MARK
position, and `j` is what the bus interface finds of it at its end (R17, R22, R23, R173). -/
structure Hears (s : State) (heard : List Byte) (opens : Bool) (j : Judgment) : Prop where
  onTheBus : s.onTheBus = true
  hearing : ∃ h, s.bus.hearing = some h ∧ h.opensRound = opens ∧ judge s.image s.bus.position h.repeated heard = j
  silent : s.bus.driving = none

/-- A MEMBER drives the burst `d` and hears `heard`; `opens` says that the burst opened the MARK position, and `j` is what the bus
interface finds of what was heard. -/
structure Drives (s : State) (d : Driving) (heard : List Byte) (opens : Bool) (j : Judgment) : Prop where
  member : s.isMember = true
  hearing : ∃ h, s.bus.hearing = some h ∧ h.opensRound = opens ∧ judge s.image s.bus.position h.repeated heard = j
  driving : s.bus.driving = some d

/-- A burst that is discarded at its end (R22, R23, R173). -/
def Judgment.discarded : Judgment → Bool
  | .checkFailure => true
  | .misplaced => true
  | .malformed => true
  | .valid _ => false

/-- A round start whose burst is judged `j` makes no settle: the station is in LISTEN, the burst is discarded, or it is a MARK of the
settled frame or of one behind (R62, R72, R75, R83). -/
def MakesNoSettle (s : State) (j : Judgment) : Prop :=
  s.isMember = false ∨ j.discarded = true ∨
    ∃ k m, j = .valid ⟨k, .mark m⟩ ∧ (forward s.settle.frame m.settled = 0 ∨ 32768 ≤ forward s.settle.frame m.settled)

/-- What entry to ISOLATED leaves, block by block (R37, R52, R96, R119, R134, R150, R162; log entry 17 for the clear state, 33 for the
last MARK value among the frozen). -/
structure Isolates (s t : State) (code : FaultCode) : Prop where
  station : t.station = { s.station with state := .isolated, fault := code }
  bus : t.bus.driving = none ∧ t.bus.hearing = none ∧ t.bus.markClaim = false ∧ t.bus.position = s.bus.position ∧
    t.bus.aligned = s.bus.aligned
  timer : t.roundTimer = { s.roundTimer with markTimer := none }
  capture : t.capture.state = .dormant ∧ t.capture.offer = none ∧ t.capture.published = false ∧
    t.capture.input = s.capture.input ∧ t.capture.silence = s.capture.silence
  stores : t.ring = [] ∧ t.publishQueue = [] ∧ t.landing = []
  responder : t.responder = .reset
  engine : t.engine = .idle
  banks : (s.banks.clear ≠ .clearingBoth → t.banks.clear = .idle) ∧ t.banks.swapPending = none ∧
    t.banks.front = s.banks.front ∧ t.banks.frontBank = s.banks.frontBank ∧ t.banks.shown = s.banks.shown
  requester : t.requester.entries = [] ∧ t.requester.unrepairable = List.replicate 16 false ∧
    t.requester.published = List.replicate 16 false ∧ t.requester.lastTag = s.requester.lastTag
  frozen : t.settle = s.settle ∧ t.members = s.members ∧ t.coverage = s.coverage ∧ t.scan = s.scan

/-- The status-port commands (section 10.1). -/
def isPortCommand : Instr → Bool
  | .readSummary => true
  | .readMembers => true
  | .readCounters => true
  | .clearCounters => true
  | .readEvent => true
  | .unknownCommand _ => true
  | .transactionComplete => true
  | .transactionCutShort => true
  | .reset => false
  | .configReadComplete _ => false
  | .startUpClearComplete => false
  | .markTimerExpiry => false
  | .joinAlone => false
  | .burstStart => false
  | .positionEnd _ _ => false
  | .burstTaken _ _ => false
  | .mediumFault _ => false
  | .duplicateNumber _ => false
  | .memberAbsent _ _ => false
  | .joinByCount _ _ => false
  | .frameStart => false
  | .rowCompletion _ => false
  | .inputLost _ _ => false
  | .placementComplete => false
  | .bankClearComplete => false
  | .scanStart => false
  | .scanEnd => false
  | .backoffEnd _ _ => false
  | .repairTimeout _ _ => false
  | .resetRelease => false

end Sys2Proof.Machine
end

