-- ==== Sys2Proof/Certificates/Slice0/Obligations.lean ====
section
/-! DEFINITION. The statements for the provers. Each docstring names the rules a statement follows; where a clause is the model's
own choice it names the log entry. -/

section
open Sys2Proof Sys2Proof.Machine

/-! ## The machine -/

/-- A step takes the command at the front of the queue and runs it with the queue's rest. -/
def Obligations.StepRunsFrontCommand : Prop :=
  ∀ (s : State) (c : Instr) (rest : List Instr), s.pending = c :: rest → step s = exec c (s.setPending rest)

/-- Every command has a next state, and none touches the queue. -/
def Obligations.CommandsCompleteAndLeaveQueue : Prop :=
  ∀ (c : Instr) (s : State), ∃ t, exec c s = .next t ∧ t.pending = s.pending

/-- RESET puts every block at its reset values (R46 and the reset columns of R37, R54, R60, R85, R87, R97, R99, R109, R112, R114,
R120, R131, R135, R151, R165, R166); the banks' contents are fresh free values (log entry 3): each bank lists no pixel and reads
as the next free value drawn; RESET counts as asserted until RESET_RELEASE, and the commands waiting stay. -/
def Obligations.ResetGivesResetValues : Prop :=
  ∀ s : State, ∃ t, exec .reset s = .next t ∧
    t.station.state = .loading ∧ t.station.fault = .noFault ∧
    t.loader.reading = true ∧ t.loader.accepted = none ∧
    t.bus.position = .tail ∧ t.bus.aligned = false ∧ t.bus.driving = none ∧ t.bus.markClaim = false ∧
    t.bus.consecutiveFaults = 0 ∧ t.bus.collisions = 0 ∧
    t.roundTimer.number = 0 ∧ t.roundTimer.markTimer = none ∧
    t.members = List.replicate 32 MemberEntry.unheard ∧
    t.settle.frame = 0 ∧ t.settle.kind = .start ∧ t.settle.openAge = 0 ∧ t.settle.lastMark = none ∧
    t.capture.state = .dormant ∧ t.capture.rowCount = 0 ∧ t.capture.disposition = .skipped ∧
    t.capture.shapeFaultPosted = false ∧ t.capture.offer = none ∧ t.capture.published = false ∧
    t.capture.input = .lost ∧ t.capture.silence = 0 ∧
    t.ring = [] ∧ t.publishQueue = [] ∧ t.coverage.rows = [] ∧ t.coverage.openFor = none ∧ t.landing = [] ∧
    t.engine = .idle ∧
    t.banks.front = .bank0 ∧ t.banks.backFrame = none ∧ t.banks.clear = .idle ∧ t.banks.swapPending = none ∧
    t.banks.shown = none ∧
    t.scan.timer = none ∧ t.scan.position = .idle ∧ t.scan.poblHigh = true ∧
    t.requester.entries = [] ∧ t.requester.published = List.replicate 16 false ∧
    t.requester.unrepairable = List.replicate 16 false ∧ t.requester.lastTag = 7 ∧
    t.responder.queue = [] ∧ t.responder.cursor = none ∧ t.responder.slot = none ∧ t.responder.replies = [] ∧
    t.port.events = [] ∧ t.port.dropped = 0 ∧ t.port.counters = List.replicate 22 0 ∧ t.port.transaction = none ∧
    t.banks.bank0 = { fill := .unknown s.freeSeq, cells := [] } ∧
    t.banks.bank1 = { fill := .unknown (s.freeSeq + 1), cells := [] } ∧ t.freeSeq = s.freeSeq + 2 ∧
    t.resetAsserted = true ∧ t.pending = s.pending

/-! ## Status port -/

/-- READ SUMMARY answers a snapshot of 24 bytes laid out as R175 has it, and changes nothing but the transaction. -/
def Obligations.ReadSummaryAnswers : Prop :=
  ∀ s : State, s.resetAsserted = false → s.port.transaction = none →
    exec .readSummary s =
      .next (s.setPort { s.port with
        transaction := some { response := summaryResponse s, beyond := 0, reported := none } }) ∧
    summaryResponse s =
      [s.station.state.code, s.station.fault.code, toByte s.image.stationNumber,
       toByte (s.settle.frame.toNat / 256), toByte s.settle.frame.toNat, s.settle.kind.code,
       toByte (s.settle.openAge / 256), toByte s.settle.openAge,
       toByte ((if s.banks.shown = none then 0 else 128) + s.capture.state.code * 16 +
         (if s.capture.input = .live then 8 else 0) + (if s.capture.offer = none then 4 else 0)),
       toByte ((s.banks.shown.getD 0).toNat / 256), toByte (s.banks.shown.getD 0).toNat,
       toByte ((s.capture.offer.getD 0).toNat / 256), toByte (s.capture.offer.getD 0).toNat,
       toByte s.publishQueue.length, toByte (s.ring.length / 256), toByte s.ring.length, toByte s.landing.length,
       toByte s.requester.entries.length, toByte s.responder.queue.length, toByte s.responder.replies.length,
       toByte s.port.events.length, toByte s.port.dropped,
       toByte (s.roundTimer.number.toNat / 256), toByte s.roundTimer.number.toNat]

/-- READ MEMBERS answers the 32 entries in ascending station number, 13 bytes each, every byte of an entry laid out as R175 has it
(R59, R175), and changes nothing but the transaction. -/
def Obligations.ReadMembersAnswers : Prop :=
  ∀ s : State, s.resetAsserted = false → s.port.transaction = none → s.members.length = 32 →
    exec .readMembers s =
      .next (s.setPort { s.port with
        transaction := some { response := membersResponse s, beyond := 0, reported := none } }) ∧
    (membersResponse s).length = 416 ∧
    ∀ k, k < 32 → ((membersResponse s).drop (13 * k)).take 13 = memberResponse (s.member k) ∧
      ((memberResponse (s.member k)).getD 0 0) = (s.member k).status.code ∧
      ((s.member k).record = none → (memberResponse (s.member k)).drop 3 = List.replicate 10 0) ∧
      (∀ r, (s.member k).record = some r →
        ((memberResponse (s.member k)).drop 3).take 7 =
          [toByte (r.settled.toNat / 256), toByte r.settled.toNat, r.kind.code,
           toByte ((r.ready.getD 0).toNat / 256), toByte (r.ready.getD 0).toNat,
           toByte ((r.shown.getD 0).toNat / 256), toByte (r.shown.getD 0).toNat]) ∧
      ∀ roles : Nat,
        roles = (if (s.member k).source then 128 else 0) + (if (s.member k).sink then 64 else 0) +
          (if (s.member k).eligible then 32 else 0) →
        ((s.member k).record = none →
          ((memberResponse (s.member k)).drop 1).take 2 = [toByte roles, toByte (s.member k).rounds]) ∧
        (∀ r, (s.member k).record = some r →
          ∀ presence : Nat,
          presence = 16 + (if r.ready = none then 0 else 8) + (if r.shown = none then 0 else 4) →
          (r.offer = none →
            ((memberResponse (s.member k)).drop 1).take 2 = [toByte (roles + presence), toByte (s.member k).rounds] ∧
            (memberResponse (s.member k)).drop 10 = [0, 0, 0]) ∧
          (∀ a f published, r.offer = some ⟨a, f, published⟩ →
            ((memberResponse (s.member k)).drop 1).take 2 =
              [toByte (roles + presence + 2 + (if published then 1 else 0)),
               toByte ((if f = none then 128 else 0) + (s.member k).rounds)] ∧
            (memberResponse (s.member k)).drop 10 =
              [toByte a, toByte ((f.getD 0).toNat / 256), toByte (f.getD 0).toNat]))

/-- READ COUNTERS answers the 22 counters in response order, two bytes each, 44 in all; CLEAR COUNTERS sets all 22 to 0 when it is
taken, has no response, and leaves the event record, the dropped-event count and everything outside the port as they are
(R165, R175). -/
def Obligations.CountersAreReadAndCleared : Prop :=
  ∀ s : State, s.resetAsserted = false → s.port.transaction = none →
    (s.port.counters.length = 22 →
      exec .readCounters s =
        .next (s.setPort { s.port with
          transaction := some { response := countersResponse s, beyond := 0, reported := none } }) ∧
      (countersResponse s).length = 44 ∧
      ∀ c : Counter, ((countersResponse s).drop (2 * c.place)).take 2 =
        [toByte (s.counter c / 256), toByte (s.counter c)]) ∧
    exec .clearCounters s =
      .next (s.setPort { events := s.port.events, dropped := s.port.dropped, counters := List.replicate 22 0,
                         transaction := some { response := [], beyond := 0, reported := none } })

/-- READ EVENT answers the oldest entry with the dropped-event count, or the kind NONE with it when the record is empty, and
removes nothing when it is taken (R167, R175). -/
def Obligations.ReadEventReportsOldest : Prop :=
  ∀ s : State, s.resetAsserted = false → s.port.transaction = none →
    (∀ e rest, s.port.events = e :: rest →
      exec .readEvent s =
        .next (s.setPort { s.port with
          transaction := some
            { response := [e.kind.code, toByte (e.round.toNat / 256), toByte e.round.toNat,
                           toByte (e.frame.toNat / 256), toByte e.frame.toNat, e.detail, toByte s.port.dropped],
              beyond := 0, reported := some (true, s.port.dropped) } })) ∧
    (s.port.events = [] →
      exec .readEvent s =
        .next (s.setPort { s.port with
          transaction := some
            { response := [0, 0, 0, 0, 0, 0, toByte s.port.dropped], beyond := 0,
              reported := some (false, s.port.dropped) } }))

/-- While RESET is held, or with a transaction in progress, no command is taken (R163; log entry 16 for the second);
RESET_RELEASE frees the port and changes nothing else; the command bytes 01h to 05h pick READ SUMMARY, READ MEMBERS, READ
COUNTERS, CLEAR COUNTERS and READ EVENT (R163, R175); and a command byte that is none of the five codes is taken with no effect,
its response FFh for as many bytes as are clocked (R163). -/
def Obligations.PortTakesCommandsAfterRelease : Prop :=
  ∀ s : State,
    (∀ c : Instr, s.resetAsserted = true ∨ s.port.transaction ≠ none →
      (c ∈ [Instr.readSummary, .readMembers, .readCounters, .clearCounters, .readEvent] ∨
        ∃ code, c = .unknownCommand code) →
      exec c s = .next s) ∧
    exec .resetRelease s = .next (s.setResetAsserted false) ∧
    (exec .readSummary s = .next (takeCommandByte 0x01 s) ∧ exec .readMembers s = .next (takeCommandByte 0x02 s) ∧
      exec .readCounters s = .next (takeCommandByte 0x03 s) ∧ exec .clearCounters s = .next (takeCommandByte 0x04 s) ∧
      exec .readEvent s = .next (takeCommandByte 0x05 s)) ∧
    (∀ code : Byte, code ∉ [0x01#8, 0x02#8, 0x03#8, 0x04#8, 0x05#8] →
      exec (.unknownCommand code) s = .next (takeCommandByte code s)) ∧
    (∀ code : Byte, s.resetAsserted = false → s.port.transaction = none →
      code ∉ [0x01#8, 0x02#8, 0x03#8, 0x04#8, 0x05#8] →
      ∃ t, exec (.unknownCommand code) s = .next t ∧
        t = s.setPort { s.port with transaction := some { response := [], beyond := 0xFF, reported := none } } ∧
        ∀ i, spdoByte t i = some 0xFF)

/-- The rise of SPCS after a full response: a READ EVENT's entry leaves the record and the dropped-event count is lowered by
the value reported; after any other command, and with none taken, only the transaction ends. A transaction cut short removes
nothing and lowers nothing, so the next READ EVENT returns the same entry and count (R163, R167). -/
def Obligations.TransactionEndRemovesReported : Prop :=
  ∀ s : State,
    (s.port.transaction = none → exec .transactionComplete s = .next s) ∧
    (∀ response beyond, s.port.transaction = some ⟨response, beyond, none⟩ →
      exec .transactionComplete s = .next (s.setPort { s.port with transaction := none })) ∧
    (∀ response beyond n, s.port.transaction = some ⟨response, beyond, some (true, n)⟩ →
      exec .transactionComplete s =
        .next (s.setPort { s.port with
          events := s.port.events.tail, dropped := s.port.dropped - n, transaction := none })) ∧
    (∀ response beyond n, s.port.transaction = some ⟨response, beyond, some (false, n)⟩ →
      exec .transactionComplete s =
        .next (s.setPort { s.port with dropped := s.port.dropped - n, transaction := none })) ∧
    exec .transactionCutShort s = .next (s.setPort { s.port with transaction := none }) ∧
    (∀ t u v, exec .readEvent s = .next t → exec .transactionCutShort t = .next u → s.resetAsserted = false →
      s.port.transaction = none → exec .readEvent u = .next v → v = t)

/-- The status-port commands write nothing outside the port (section 10, "Neither reaches the wall bus, the banks or the settle
agreement"). -/
def Obligations.PortCommandsStayInPort : Prop :=
  ∀ (c : Instr) (s t : State), isPortCommand c = true → exec c s = .next t → OnlyWrites [.port] s t

/-- The station does the same wall work whatever the status port holds: every other command gives, from states that differ in
the port alone, states that differ in the port alone. -/
def Obligations.WallWorkIgnoresPort : Prop :=
  ∀ (c : Instr) (s t : State) (p : StatusPort), isPortCommand c = false → exec c s = .next t →
    ∃ q, exec c (s.setPort p) = .next (t.setPort q)

/-- A raise lifts one counter, saturating at 65535, and no other; an event posted is the newest entry, stamped with the round
number, or is dropped and counted when the record holds 32; ALERT is low exactly while the record holds an entry
(R165, R166, R168). -/
def Obligations.CountersSaturateAndEventsAppend : Prop :=
  (∀ (s : State) (c d : Counter) (n : Nat), s.port.counters.length = 22 →
    (raise c n s).counter d = if d = c then min 65535 (s.counter c + n) else s.counter d) ∧
  (∀ (s : State) (k : EventKind) (f : Frame) (d : Byte), s.port.events.length < 32 →
    post k f d s = s.setPort { s.port with
      events := s.port.events ++ [{ kind := k, round := s.roundTimer.number, frame := f, detail := d }] }) ∧
  (∀ (s : State) (k : EventKind) (f : Frame) (d : Byte), 32 ≤ s.port.events.length →
    post k f d s = s.setPort { s.port with dropped := min 255 (s.port.dropped + 1) }) ∧
  (∀ s : State, s.alertLow = true ↔ s.port.events ≠ [])

/-! ## Canvas, pieces, formats, orientation -/

/-- The pieces of a row of width w ≥ 1 cut it without gap or overlap: column c of the row lies in piece (c − x0) div 256 and in no
other, every piece but the last holds 256 pixels and the last w − 256(n − 1), between 1 and 256 (R4). -/
def Obligations.PiecesCutTheRow : Prop :=
  ∀ e : StreamEntry, 1 ≤ e.width →
    (∀ c, e.x0 ≤ c → c < e.x0 + e.width →
      e.indexOf c < e.pieces ∧
      ∀ i, i < e.pieces → ((e.pieceFirst i ≤ c ∧ c ≤ e.pieceLast i) ↔ i = e.indexOf c)) ∧
    (∀ i, i + 1 < e.pieces → e.piecePixels i = 256) ∧
    e.piecePixels (e.pieces - 1) = e.width - 256 * (e.pieces - 1) ∧
    1 ≤ e.piecePixels (e.pieces - 1) ∧ e.piecePixels (e.pieces - 1) ≤ 256

/-- The coverage plan has one list for each tile row, that of tile row v being the list of canvas row TY + v. It lists, for a
canvas row, exactly the pieces of contributing streams that cover the row and share a column with the tile, each with its piece
span and its placed span, in ascending order of the placed spans' first columns (R12, R13). -/
def Obligations.PlanListsPiecesInTile : Prop :=
  (∀ img : Image, img.coveragePlan.length = img.tileHeight ∧
    ∀ v, v < img.tileHeight → img.coveragePlan.getD v [] = img.expectedRow (img.tileY + v)) ∧
  ∀ (img : Image) (y : Nat), 1 ≤ img.tileWidth →
    (∀ k, (img.stream k).valid = true → 1 ≤ (img.stream k).width) →
    (∀ k i, (∃ e ∈ img.expectedRow y, e.stream = k ∧ e.index = i) ↔
      k < 16 ∧ img.contributes k = true ∧ (img.stream k).rect.coversRow y = true ∧ i < (img.stream k).pieces ∧
        ∃ c, (img.stream k).pieceFirst i ≤ c ∧ c ≤ (img.stream k).pieceLast i ∧
          img.tileX ≤ c ∧ c < img.tileX + img.tileWidth) ∧
    (∀ e ∈ img.expectedRow y, e.pieceFirst = (img.stream e.stream).pieceFirst e.index ∧
      e.pieceLast = (img.stream e.stream).pieceLast e.index ∧
      e.placedFirst = max e.pieceFirst img.tileX ∧
      e.placedLast = min e.pieceLast (img.tileX + img.tileWidth - 1)) ∧
    (img.expectedRow y).Pairwise (fun a b => a.placedFirst ≤ b.placedFirst)

/-- A sink expands each 4-bit value of a NARROW piece, n to 2n + (n div 8) in red and blue and to 4n + (n div 4) in green, so that
0 stays 0 and 15 becomes full scale, and writes the pixels of a WIDE piece unchanged (R9). -/
def Obligations.NarrowPixelsAreExpanded : Prop :=
  (∀ r g b : Nat, r < 16 → g < 16 → b < 16 →
    coloursOf (expand { red := r, green := g, blue := b }) =
      { red := 2 * r + r / 8, green := 4 * g + g / 4, blue := 2 * b + b / 8 }) ∧
  coloursOf (expand { red := 0, green := 0, blue := 0 }) = { red := 0, green := 0, blue := 0 } ∧
  coloursOf (expand { red := 15, green := 15, blue := 15 }) = { red := 31, green := 63, blue := 31 } ∧
  expand (narrowOf 0) = 0 ∧ expand (narrowOf 0xFFFF) = 0xFFFF ∧
  (∀ (p : Piece) (background : Pixel), p.fill = false → p.format = .narrow →
    p.pixels background = (unpackNarrow p.payload).map expand) ∧
  (∀ (p : Piece) (background : Pixel), p.fill = false → p.format = .wide → p.pixels background = unpackWide p.payload)

/-- A NARROW source keeps the top 4 bits of each colour, r div 2, g div 4, b div 2; a payload of c pixels takes 2c bytes in WIDE
and (3c + 1) div 2 bytes in NARROW, and a receiver reads back the pixels sent, whatever the padding of an odd last NARROW pixel
(R7, R8, R172). -/
def Obligations.PayloadsReadBack : Prop :=
  (∀ p : Pixel, narrowOf p =
    { red := p.toNat / 2048 / 2, green := p.toNat / 32 % 64 / 4, blue := p.toNat % 32 / 2 }) ∧
  (∀ (f : Format) (l : List Pixel), (packPayload f l).length = payloadLength f l.length) ∧
  (∀ l : List Pixel, unpackWide (packPayload .wide l) = l) ∧
  (∀ l : List Pixel, unpackNarrow (packPayload .narrow l) = l.map narrowOf) ∧
  (∀ a b b' : Byte, b.toNat / 16 = b'.toNat / 16 → unpackNarrow [a, b] = unpackNarrow [a, b'])

/-- The orientation mapping takes tile offsets to panel coordinates by the table of R118, and maps the tile one to one onto the
panel. -/
def Obligations.OrientationIsOneToOne : Prop :=
  ∀ img : Image,
    (∀ u v, img.panelPosition u v =
      match img.swapAxes, img.reverseColumns, img.reverseRows with
      | false, false, false => (u, v)
      | false, true, false => (img.panelWidth - 1 - u, v)
      | false, false, true => (u, img.panelHeight - 1 - v)
      | false, true, true => (img.panelWidth - 1 - u, img.panelHeight - 1 - v)
      | true, false, false => (v, u)
      | true, true, false => (img.panelWidth - 1 - v, u)
      | true, false, true => (v, img.panelHeight - 1 - u)
      | true, true, true => (img.panelWidth - 1 - v, img.panelHeight - 1 - u)) ∧
    (∀ u v, u < img.tileWidth → v < img.tileHeight →
      (img.panelPosition u v).1 < img.panelWidth ∧ (img.panelPosition u v).2 < img.panelHeight) ∧
    (∀ u v u' v', u < img.tileWidth → v < img.tileHeight → u' < img.tileWidth → v' < img.tileHeight →
      img.panelPosition u v = img.panelPosition u' v' → u = u' ∧ v = v') ∧
    (∀ x y, x < img.panelWidth → y < img.panelHeight →
      ∃ u v, u < img.tileWidth ∧ v < img.tileHeight ∧ img.panelPosition u v = (x, y)) ∧
    (∀ u u' v, img.swapAxes = false → (img.panelPosition u v).2 = (img.panelPosition u' v).2) ∧
    (∀ u u' v, img.swapAxes = true → (img.panelPosition u v).1 = (img.panelPosition u' v).1)

/-! ## Configuration -/

/-- The read finds IMAGE CHECK when every byte reads as FFh, when the check word in the last four bytes disagrees with bytes 0 to
251, or when the format code is not 31h (R39). An image that passes this is put to the seven checks in their order: the code found
is that of the first check that fails, and there is none when all hold (R40 to R43). -/
def Obligations.ImageCheckFindsNoImage : Prop :=
  (∀ bs : List Byte, bs.length = 256 →
    (readFault bs = some .imageCheck ↔
      bs = List.replicate 256 0xFF ∨ bs.drop 252 ≠ toQuad (checkWord (bs.take 252)) ∨ bs.head? ≠ some 0x31)) ∧
  (∀ bs : List Byte, readFault bs ≠ some .imageCheck →
    (∀ before after code holds, imageChecks = before ++ (code, holds) :: after →
      (∀ c ∈ before, c.2 (parseImage bs)) → ¬ holds (parseImage bs) → readFault bs = some code) ∧
    ((∀ c ∈ imageChecks, c.2 (parseImage bs)) → readFault bs = none))

/-- An image that is accepted passes every check of R40: its fields lie in the ranges of R41, its tile and its valid streams lie
inside the canvas, no canvas pixel lies in two valid streams, no two valid streams share a publisher and the own stream goes with
the source role (R42), the position map and the valid streams name each other (R43), and no row of a sink's plan lists more than
8 pieces (R14). -/
def Obligations.AcceptedImagesAreSound : Prop :=
  ∀ bs : List Byte, readFault bs = none → ∀ img, img = parseImage bs →
    (img.stationNumber ≤ 31 ∧ 100 ≤ img.roundPeriod ∧ img.roundPeriod ≤ 2000 ∧ 2 ≤ img.absenceLimit ∧
      img.absenceLimit ≤ 15 ∧ 8 ≤ img.deadline ∧ img.deadline ≤ 4095 ∧ 1 ≤ img.silenceLimit ∧ img.silenceLimit ≤ 255 ∧
      8 ≤ img.panelWidth ∧ img.panelWidth ≤ 320 ∧ 8 ≤ img.panelHeight ∧ img.panelHeight ≤ 240 ∧ img.tileX ≤ 4095 ∧
      img.tileY ≤ 4095 ∧ 50 ≤ img.scanPeriod ∧ img.scanPeriod ≤ 1000 ∧
      (∀ j, j < 96 → img.positionMap.getD j 0 ≤ 15 ∨ img.positionMap.getD j 0 = 255)) ∧
    (img.tileX + img.tileWidth ≤ 4096 ∧ img.tileY + img.tileHeight ≤ 4096) ∧
    (∀ k, k < 16 → (img.stream k).valid = true →
      (img.stream k).x0 + (img.stream k).width ≤ 4096 ∧ (img.stream k).y0 + (img.stream k).height ≤ 4096 ∧
      (img.stream k).publisher ≤ 31 ∧ (img.stream k).formatCode ≤ 1 ∧ (img.stream k).x0 ≤ 4095 ∧ (img.stream k).y0 ≤ 4095 ∧
      1 ≤ (img.stream k).width ∧ (img.stream k).width ≤ 4096 ∧ 1 ≤ (img.stream k).height ∧ (img.stream k).height ≤ 4096 ∧
      (∃ j, j < 96 ∧ img.mapEntry j = some k) ∧
      ((img.stream k).publisher = img.stationNumber → img.sourceRole = true)) ∧
    (∀ a b, a < 16 → b < 16 → a ≠ b → (img.stream a).valid = true → (img.stream b).valid = true →
      (img.stream a).publisher ≠ (img.stream b).publisher ∧
      ¬ ∃ x y, (img.stream a).x0 ≤ x ∧ x < (img.stream a).x0 + (img.stream a).width ∧ (img.stream a).y0 ≤ y ∧
          y < (img.stream a).y0 + (img.stream a).height ∧ (img.stream b).x0 ≤ x ∧
          x < (img.stream b).x0 + (img.stream b).width ∧ (img.stream b).y0 ≤ y ∧
          y < (img.stream b).y0 + (img.stream b).height) ∧
    (img.sourceRole = true → ∃ k, k < 16 ∧ img.ownStream = some k ∧ (img.stream k).valid = true ∧
      (img.stream k).publisher = img.stationNumber) ∧
    (∀ j k, img.mapEntry j = some k → (img.stream k).valid = true) ∧
    (img.sinkRole = true → ∀ l ∈ img.coveragePlan, l.length ≤ 8)

/-- The end of a read that finds a fault: the loader holds no new image, the station isolates with the code found, and ISOLATED is
posted with that code and the settled frame, which is 0 after reset; no bank is cleared and no scan starts (R39, R40, R52). That a
stopped clear would leave the clear state IDLE and that a last MARK value would be kept are the model's choices, which no station
in LOADING meets (log entries 17 and 33). -/
def Obligations.ConfigFaultIsolates : Prop :=
  ∀ (s : State) (bs : List Byte) (code : FaultCode), s.station.state = .loading → s.loader.reading = true →
    readFault bs = some code →
    ∃ t, exec (.configReadComplete bs) s = .next t ∧ Isolates s t code ∧
      t.loader = { s.loader with reading := false } ∧ t.port = (post .isolated s.settle.frame code.code s).port

/-- The end of a read that finds no fault: the loader holds the image, the digest and a sink's plan; a sink takes the plan into
its coverage table and begins the start-up clear, and any other station enters LISTEN (R44, R45, R47, R48, R109, R121). A read
that is not in progress has no end (the model's choice, log entry 10). -/
def Obligations.AcceptedImageStartsStation : Prop :=
  ∀ (s : State) (bs : List Byte),
    (s.station.state = .loading → s.loader.reading = true → readFault bs = none →
      ∃ t, exec (.configReadComplete bs) s = .next t ∧
        t.loader = ⟨false, some ⟨parseImage bs, wallDigest bs,
          if (parseImage bs).sinkRole then (parseImage bs).coveragePlan else []⟩⟩ ∧
        ((parseImage bs).sinkRole = true →
          t = ((s.setLoader t.loader).setCoverage (Coverage.ofPlan (parseImage bs).coveragePlan)).setBanks
            { s.banks with clear := .clearingBoth }) ∧
        ((parseImage bs).sinkRole = false →
          t.station = { s.station with state := .listen, silentExpiries := 0, joinCount := 0 } ∧
          t.bus = Bus.reset ∧ t.settle = { s.settle with lastMark := none } ∧
          t.members = s.members.set (parseImage bs).stationNumber
            { status := .self, source := (parseImage bs).sourceRole, sink := false, rounds := 0, eligible := false,
              record := none } ∧
          t.roundTimer.markTimer = some ((parseImage bs).roundPeriod * 10 + (parseImage bs).stationNumber * 5) ∧
          OnlyWrites [.loader, .station, .bus, .settle, .members, .roundTimer] s t)) ∧
    (s.station.state ≠ .loading ∨ s.loader.reading = false → exec (.configReadComplete bs) s = .next s)

/-- The end of the start-up clear: both banks hold the background colour at every pixel, bank 0 is the front bank, there is no
shown frame, the first scan start comes and releases POBL, and the station enters LISTEN unaligned with its counts at 0, its own
entry SELF and its mark timer started (R48, R121). With no start-up clear in progress nothing happens (the model's choice, log
entry 10). -/
def Obligations.StartUpClearEntersListen : Prop :=
  ∀ s : State,
    (s.station.state = .loading → s.banks.clear = .clearingBoth → s.banks.swapPending = none →
      ∃ t, exec .startUpClearComplete s = .next t ∧
        t.banks = { s.banks with bank0 := Bank.cleared s.image.background, bank1 := Bank.cleared s.image.background,
                                 front := .bank0, clear := .idle, shown := none } ∧
        (∀ a, t.banks.bank0.read a = s.image.background ∧ t.banks.bank1.read a = s.image.background) ∧
        t.scan = { timer := some s.image.scanPeriod, position := .row 0, poblHigh := false } ∧
        t.station = { s.station with state := .listen, silentExpiries := 0, joinCount := 0 } ∧
        t.bus = Bus.reset ∧ t.settle = { s.settle with lastMark := none } ∧
        t.members = s.members.set s.image.stationNumber
          { status := .self, source := s.image.sourceRole, sink := s.image.sinkRole, rounds := 0, eligible := false,
            record := none } ∧
        t.roundTimer = { s.roundTimer with
          markTimer := some (s.image.roundPeriod * 10 + s.image.stationNumber * 5) } ∧
        OnlyWrites [.banks, .scan, .station, .bus, .settle, .members, .roundTimer] s t) ∧
    (s.station.state ≠ .loading ∨ s.banks.clear ≠ .clearingBoth → exec .startUpClearComplete s = .next s)

/-! ## Bursts as bytes -/

/-- Every burst a station sends is read back whole: its check word agrees, its class fits its kind, its sender and every field are
those that were composed, and its length is that of R170; an offer of NONE carries frame 0000h, in the two bytes before the check
word (R171). -/
def Obligations.BurstsReadBack : Prop :=
  ∀ (img : Image) (b : Burst), b.Sendable img →
    checkAgrees (encodeBurst b) = true ∧ classFits (encodeBurst b) = true ∧ senderBits (encodeBurst b) = b.sender ∧
    decodeBody img (encodeBurst b) = some b.body ∧
    (match b.body with
     | .mark _ => (encodeBurst b).length = 11
     | .state _ => 12 ≤ (encodeBurst b).length ∧ (encodeBurst b).length ≤ 19
     | .segment _ => 13 ≤ (encodeBurst b).length ∧ (encodeBurst b).length ≤ 526
     | .request q => (encodeBurst b).length = 14 + 3 * q.ranges.length
     | .status _ => (encodeBurst b).length = 14) ∧
    (∀ m a published, b.body = .state m → m.offer = some ⟨a, none, published⟩ →
      ((encodeBurst b).drop ((encodeBurst b).length - 6)).take 2 = [0, 0])

/-- The arbitration field decides for the lower field value: where the field heard has the lower value the contender has lost and
keeps its item, and otherwise any difference is a readback fault: in the field, after it, or where less is heard than was driven
(log entry 13 for the last); in an owned position the field decides nothing (R25, R26, R32). -/
def Obligations.ArbitrationIsByFieldValue : Prop :=
  (∀ (a b : Byte) (l m : List Byte), b.toNat < a.toNat → readback true (a :: l) (b :: m) = .arbitrationLost) ∧
  (∀ (a b : Byte) (l m : List Byte), a.toNat < b.toNat → readback true (a :: l) (b :: m) = .fault) ∧
  (∀ (a b : Byte) (l m : List Byte), a ≠ b → readback false (a :: l) (b :: m) = .fault) ∧
  (∀ (contested : Bool) (l m : List Byte), readback contested l m = .clean ↔ l <+: m) ∧
  (∀ (contested : Bool) (a : Byte) (l m : List Byte), ¬ (a :: l) <+: (a :: m) →
    readback contested (a :: l) (a :: m) = .fault) ∧
  (∀ (contested : Bool) (a : Byte) (l : List Byte), readback contested (a :: l) [] = .fault) ∧
  (∀ b : Burst, b.sender < 32 → ((encodeBurst b).headD 0).toNat = 32 * b.body.classOf + b.sender)

/-! ## Burst starts, positions and what is sent -/

/-- A burst start: the station hears none in LOADING and ISOLATED; in LISTEN it sets the silent-expiry count back to 0; in TAIL it
opens the MARK position; in a numbered position it is a second one when the position already held one; and an unaligned station
takes it for a possible MARK position (R16, R17, R21, R48). A start heard while the station drives is its own (log entry 5), a
second one in the MARK position opens no round (log entry 9), and where a burst is still being heard a later start takes its place
in a numbered position and unaligned, and leaves it in the MARK position (log entry 30). -/
def Obligations.BurstStartByPosition : Prop :=
  (∀ s : State, s.station.state = .loading ∨ s.station.state = .isolated → exec .burstStart s = .next s) ∧
  (∀ s : State, s.station.state = .listen → s.bus.aligned = false →
    exec .burstStart s = .next ((s.setStation { s.station with silentExpiries := 0 }).setBus
      { s.bus with hearing := some ⟨true, false⟩ })) ∧
  (∀ s : State, s.station.state = .member → s.bus.driving ≠ none → exec .burstStart s = .next s) ∧
  (∀ s r : State,
    (s.station.state = .listen ∧ s.bus.aligned = true ∧ r = s.setStation { s.station with silentExpiries := 0 }) ∨
      (s.station.state = .member ∧ s.bus.driving = none ∧ r = s) →
    (s.bus.position = .tail →
      exec .burstStart s = .next (r.setBus
        { s.bus with position := .mark, positionHeld := true, hearing := some ⟨true, false⟩ })) ∧
    (∀ k, s.bus.position = .numbered k →
      exec .burstStart s = .next (r.setBus
        { s.bus with positionHeld := true, hearing := some ⟨false, s.bus.positionHeld⟩ })) ∧
    (s.bus.position = .mark → s.bus.hearing = none →
      exec .burstStart s = .next (r.setBus
        { s.bus with positionHeld := true, hearing := some ⟨false, false⟩ })) ∧
    (∀ h, s.bus.position = .mark → s.bus.hearing = some h →
      exec .burstStart s = .next (r.setBus { s.bus with positionHeld := true })))

/-- The end of a position in which nothing is being heard: the position counter goes from MARK to 1, from k to k + 1 and from 160
to TAIL, and nothing but the bus interface changes; TAIL has no end, and a station in LOADING or ISOLATED counts no positions, nor
does an unaligned one, where the end only drops a candidate (R15, R16, R21; log entry 19). A burst still being heard when its
position ends is cut off and counts as a check failure, and the counter advances (R16, R22). So does the burst that opened the
MARK position, whose cut-off is a round start, and one the station drives, whose readback is settled first: each end acts as that
of a burst whose check fails, and the counter advances after it, unless the readback isolates the station (R17, R22, R32). -/
def Obligations.PositionEndAdvancesCounter : Prop :=
  (∀ (s : State) (heard : List Byte) (o : Orders), s.onTheBus = true → s.bus.hearing = none → s.bus.position ≠ .tail →
    ∃ t, exec (.positionEnd heard o) s = .next t ∧ OnlyWrites [.bus] s t ∧
      (s.bus.position = .mark → t.bus.position = .numbered 1) ∧
      (∀ k, s.bus.position = .numbered k → k < 160 → t.bus.position = .numbered (k + 1)) ∧
      (s.bus.position = .numbered 160 → t.bus.position = .tail) ∧
      (s.isMember = false →
        t.bus = { s.bus with position := t.bus.position, positionHeld := false, hearing := none, driving := none })) ∧
  (∀ (s : State) (heard : List Byte) (o : Orders), s.onTheBus = true → s.bus.position = .tail →
    exec (.positionEnd heard o) s = .next s) ∧
  (∀ (s : State) (heard : List Byte) (o : Orders), s.station.state = .loading ∨ s.station.state = .isolated →
    exec (.positionEnd heard o) s = .next s) ∧
  (∀ (s : State) (heard : List Byte) (o : Orders), s.station.state = .listen → s.bus.aligned = false →
    exec (.positionEnd heard o) s = .next (s.setBus { s.bus with hearing := none })) ∧
  (∀ (s : State) (heard : List Byte) (o : Orders) (h : Hearing), s.onTheBus = true → s.bus.driving = none →
    s.bus.hearing = some h → h.opensRound = false → s.bus.position ≠ .tail → s.port.counters.length = 22 →
    ∃ t, exec (.positionEnd heard o) s = .next t ∧ OnlyWrites [.bus, .port] s t ∧
      t.port = { s.port with counters := t.port.counters } ∧
      (∀ c, t.counter c = if c = .checkFailures then min 65535 (s.counter c + 1) else s.counter c) ∧
      t.bus.position = s.bus.position.next) ∧
  (∀ (s u : State) (heard heard' : List Byte) (opens : Bool) (o : Orders), Hears s heard' opens .checkFailure →
    s.bus.position ≠ .tail → exec (.burstTaken heard' o) s = .next u →
    ∃ t, exec (.positionEnd heard o) s = .next t ∧ OnlyWrites [.bus] u t ∧ t.bus.position = s.bus.position.next ∧
      (s.isMember = true → opens = true →
        t.roundTimer = { number := s.roundTimer.number + 1,
                         markTimer := some (s.image.roundPeriod * 10 + s.image.stationNumber * 5) } ∧
        t.settle = { s.settle with openAge := min 65535 (s.settle.openAge + 1) } ∧
        (s.port.counters.length = 22 → t.counter .checkFailures = min 65535 (s.counter .checkFailures + 1)))) ∧
  (∀ (s u : State) (d : Driving) (heard : List Byte) (opens : Bool) (o : Orders), Drives s d heard opens .checkFailure →
    s.bus.position ≠ .tail → exec (.burstTaken heard o) s = .next u →
    (u.station.state = .isolated → exec (.positionEnd heard o) s = .next u) ∧
    (u.station.state ≠ .isolated →
      ∃ t, exec (.positionEnd heard o) s = .next t ∧ OnlyWrites [.bus] u t ∧ t.bus.position = s.bus.position.next))

/-- At the start of its own state position a MEMBER sends a STATE composed from what the station holds then, and in the other
state positions it sends nothing (R29, R31, R95, R126). Its ready frame rests on completeness: the back bank is open for the
frame, clear and without a swap pending, nothing waits or is being placed, and every contributing stream is fully claimed or
treated as NONE by the table of R125, which also tells awaited streams from unknown ones (R124, R125). -/
def Obligations.StateSentInOwnPosition : Prop :=
  (∀ (s : State) (f : Frame), completeFor s f = true ↔ Complete s f) ∧
  (∀ (s : State) (f : Frame) (k : Nat),
    (streamStanding s f k = .treatedAsNone ↔ TreatedAsNone s f k) ∧ (streamStanding s f k = .awaited ↔ Awaited s f k) ∧
    (streamStanding s f k = .unknown ↔ ¬ TreatedAsNone s f k ∧ ¬ Awaited s f k)) ∧
  ∀ (s : State) (heard : List Byte) (o : Orders) (k : Nat), s.isMember = true → s.bus.hearing = none →
    s.bus.position ≠ .tail → s.bus.position.next = .numbered k → k ≤ 32 →
    ∃ t, exec (.positionEnd heard o) s = .next t ∧ OnlyWrites [.bus] s t ∧
      (k ≠ s.image.stationNumber + 1 → t.bus.driving = none) ∧
      (k = s.image.stationNumber + 1 →
        ∃ m : StateFields, t.bus.driving = some ⟨.state, false, encodeBurst ⟨s.image.stationNumber, .state m⟩⟩ ∧
          m.digest = s.digest ∧ m.source = s.image.sourceRole ∧ m.sink = s.image.sinkRole ∧
          m.settled = s.settle.frame ∧ m.kind = s.settle.kind ∧
          m.ready = (if completeFor s (s.settle.frame + 1) then some (s.settle.frame + 1) else none) ∧
          m.shown = (if s.image.sinkRole then s.banks.shown else none) ∧
          m.offer = (if s.image.sourceRole then
            s.image.ownStream.map (fun j => ⟨j, s.capture.offer, s.capture.published⟩) else none))

/-- At the start of a stream position a MEMBER sends in those its position map gives to its own stream alone: the head of the
publish queue, or else the repair slot's segment, or else nothing (R30, R31, R100). -/
def Obligations.SegmentSentInOwnStreamPosition : Prop :=
  ∀ (s : State) (heard : List Byte) (o : Orders) (k : Nat), s.isMember = true → s.bus.hearing = none →
    s.bus.position = .numbered k → 32 ≤ k → k < 128 →
    ∃ t, exec (.positionEnd heard o) s = .next t ∧ OnlyWrites [.bus] s t ∧
      (s.image.mapEntry (k - 32) = none ∨ s.image.mapEntry (k - 32) ≠ s.image.ownStream → t.bus.driving = none) ∧
      (∀ a, s.image.mapEntry (k - 32) = some a → s.image.ownStream = some a →
        (∀ p rest, s.publishQueue = p :: rest →
          t.bus.driving = some ⟨.fresh, false, encodeBurst ⟨s.image.stationNumber, .segment ⟨p, none⟩⟩⟩) ∧
        (∀ m, s.publishQueue = [] → s.responder.slot = some m →
          t.bus.driving = some ⟨.repair, false, encodeBurst ⟨s.image.stationNumber, .segment m⟩⟩) ∧
        (s.publishQueue = [] → s.responder.slot = none → t.bus.driving = none))

/-- At the start of an open position a MEMBER offers exactly one burst, its pending item of the lowest class: the STATUS at the
head of the reply queue, the REQUEST of the first COMPOSED entry, or the repair slot's segment (R28, R31, R141, R158, R160). -/
def Obligations.LowestClassOfferedInOpenPosition : Prop :=
  ∀ (s : State) (heard : List Byte) (o : Orders) (k : Nat), s.isMember = true → s.bus.hearing = none →
    s.bus.position = .numbered k → 128 ≤ k → k < 160 →
    ∃ t, exec (.positionEnd heard o) s = .next t ∧ OnlyWrites [.bus] s t ∧
      (∀ m rest, s.responder.replies = m :: rest →
        t.bus.driving = some ⟨.status, true, encodeBurst ⟨s.image.stationNumber, .status m⟩⟩) ∧
      (∀ e, s.responder.replies = [] → s.requester.entries.find? (fun e => e.state == .composed) = some e →
        t.bus.driving = some ⟨.request e.tag, true, encodeBurst ⟨s.image.stationNumber,
          .request ⟨e.tag, e.stream, e.frame, e.firstColumn, e.lastColumn, e.ranges⟩⟩⟩) ∧
      (∀ m, s.responder.replies = [] → (∀ e ∈ s.requester.entries, e.state ≠ .composed) → s.responder.slot = some m →
        t.bus.driving = some ⟨.repair, true, encodeBurst ⟨s.image.stationNumber, .segment m⟩⟩) ∧
      (s.responder.replies = [] → (∀ e ∈ s.requester.entries, e.state ≠ .composed) → s.responder.slot = none →
        t.bus.driving = none)

/-! ## The ends of bursts -/

/-- A burst that fails its check, is misplaced or is malformed, in a numbered position, is discarded: it raises its count, and
nothing else changes (R16, R22, R23, R173). -/
def Obligations.DiscardedBurstsAreCounted : Prop :=
  ∀ (s : State) (heard : List Byte) (o : Orders),
    (Hears s heard false .checkFailure →
      exec (.burstTaken heard o) s = .next (raise .checkFailures 1 (afterBurst s))) ∧
    (Hears s heard false .misplaced →
      exec (.burstTaken heard o) s = .next (raise .misplacedBursts 1 (afterBurst s))) ∧
    (Hears s heard false .malformed →
      exec (.burstTaken heard o) s = .next (raise .misplacedBursts 1 (afterBurst s)))

/-- In aligned LISTEN a valid SEGMENT, REQUEST or STATUS is dropped uncounted, a STATE of another station goes to the membership
table alone, a STATE of the own number isolates the station with DUPLICATE NUMBER, and a MARK that opened no round is recorded as
the last MARK value, which is all it does (R24, R36, R48; log entry 9). That the isolated station keeps its last MARK value, and
that a stopped clear leaves the clear state IDLE, are the model's choices (log entries 17 and 33). -/
def Obligations.ListeningStationTakesStatesOnly : Prop :=
  ∀ (s : State) (heard : List Byte) (o : Orders) (b : Burst), s.station.state = .listen → Hears s heard false (.valid b) →
    (∀ m, b.body = .segment m → exec (.burstTaken heard o) s = .next (afterBurst s)) ∧
    (∀ m, b.body = .request m → exec (.burstTaken heard o) s = .next (afterBurst s)) ∧
    (∀ m, b.body = .status m → exec (.burstTaken heard o) s = .next (afterBurst s)) ∧
    (∀ m, b.body = .mark m →
      exec (.burstTaken heard o) s =
        .next ((afterBurst s).setSettle { s.settle with lastMark := some (m.settled, m.kind) })) ∧
    (∀ m, b.body = .state m → b.sender ≠ s.image.stationNumber →
      exec (.burstTaken heard o) s = .next (tableTakeState b.sender m (afterBurst s))) ∧
    (∀ m, b.body = .state m → b.sender = s.image.stationNumber →
      ∃ t, exec (.burstTaken heard o) s = .next t ∧ Isolates s t .duplicateNumber ∧ t.loader = s.loader ∧
        t.port = (post .isolated s.settle.frame 0x09 s).port)

/-- A contender that loses arbitration goes on as a receiver: the burst's end is what it would be had it sent nothing, its item is
still pending, and no fault is counted; a MARK it composed is dropped. A readback fault below the limits leaves the item pending,
raises the count of readback faults and the consecutive count, and for the own STATE the collision count; whatever was heard is
then taken like any other burst (R20, R24, R26, R32, R34, R35). -/
def Obligations.LossAndFaultAreReception : Prop :=
  ∀ (s : State) (d : Driving) (heard : List Byte) (opens : Bool) (j : Judgment) (o : Orders), Drives s d heard opens j →
    (readback d.contested d.bytes heard = .arbitrationLost →
      exec (.burstTaken heard o) s =
        exec (.burstTaken heard o)
          (s.setBus { s.bus with driving := none, markClaim := s.bus.markClaim && !d.item.isMark })) ∧
    (readback d.contested d.bytes heard = .fault → s.bus.consecutiveFaults + 1 < 8 →
      (d.item = .state → s.bus.collisions = 0) →
      exec (.burstTaken heard o) s =
        exec (.burstTaken heard o) ((raise .readbackFaults 1 s).setBus
          { s.bus with
            driving := none, consecutiveFaults := s.bus.consecutiveFaults + 1,
            collisions := if d.item = .state then 1 else s.bus.collisions }))

/-- The readback fault that brings the consecutive count to 8 isolates with MEDIUM FAULT, and the one of the own STATE that brings
the collision count to 2 with DUPLICATE NUMBER, which comes first when both are met (R34, R35, R52). That the two commands name
the whole burst end, that an isolating fault leaves the burst untaken and so its check failure uncounted, that a stopped clear
leaves the clear state IDLE, and that a last MARK value would be kept, are the model's readings (log entries 1, 13, 17 and 33). -/
def Obligations.FaultLimitsIsolate : Prop :=
  (∀ (s : State) (d : Driving) (heard : List Byte) (opens : Bool) (j : Judgment), Drives s d heard opens j →
    readback d.contested d.bytes heard = .fault →
    (7 ≤ s.bus.consecutiveFaults → ¬ (d.item = .state ∧ 1 ≤ s.bus.collisions) →
      ∃ t, exec (.mediumFault heard) s = .next t ∧ (∀ o, exec (.burstTaken heard o) s = .next t) ∧
        Isolates s t .mediumFault ∧ t.loader = s.loader ∧ t.bus.consecutiveFaults = 8 ∧
        t.port = (post .isolated s.settle.frame 0x0A (raise .readbackFaults 1 s)).port) ∧
    (d.item = .state → 1 ≤ s.bus.collisions →
      ∃ t, exec (.duplicateNumber heard) s = .next t ∧ (∀ o, exec (.burstTaken heard o) s = .next t) ∧
        Isolates s t .duplicateNumber ∧ t.loader = s.loader ∧ t.bus.collisions = 2 ∧
        t.port = (post .isolated s.settle.frame 0x09 (raise .readbackFaults 1 s)).port)) ∧
  (∀ (s : State) (heard : List Byte), s.bus.driving = none ∨ s.bus.consecutiveFaults < 7 →
    exec (.mediumFault heard) s = .next s) ∧
  (∀ (s : State) (heard : List Byte), s.bus.driving = none ∨ s.bus.collisions = 0 →
    exec (.duplicateNumber heard) s = .next s)

/-- A clean readback sets the consecutive fault count to 0, for the own STATE also the collision count, and reports the item to
its owner: a fresh SEGMENT leaves the publish queue, the repair slot's segment is counted as sent and the walk goes on, the entry
of a REQUEST becomes SENT, a STATUS leaves the reply queue, and the station's own MARK makes the round start, at which its verdict
is taken as a settle of the open frame by the path of the own MARK (R20, R34, R35, R69, R100, R141, R158, R159, R160). The last
fresh piece that leaves in HOLDING sets the published flag, and at a sink that publishes to its own tile the mark of its own
stream, with a gap scan (R94, R100, R137, R138). A walk that finds no next piece ends the service: its STATUS is queued or, the
reply queue full, dropped and counted, and the request behind it enters service in the same step (R155, R159, R160). -/
def Obligations.PassedItemsLeave : Prop :=
  ∀ (s : State) (d : Driving) (heard : List Byte) (opens : Bool) (j : Judgment) (o : Orders), Drives s d heard opens j →
    readback d.contested d.bytes heard = .clean → s.port.counters.length = 22 →
    ∃ t, exec (.burstTaken heard o) s = .next t ∧
      t.bus = { s.bus with
        hearing := none, driving := none, consecutiveFaults := 0,
        collisions := if d.item = .state then 0 else s.bus.collisions,
        markClaim := s.bus.markClaim && !d.item.isMark } ∧
      (opens = false → d.item = .fresh → kindBits heard = 3 →
        t.publishQueue = s.publishQueue.drop 1 ∧
        OnlyWrites [.bus, .publishQueue, .capture, .requester, .coverage, .landing, .engine, .port] s t ∧
        t.capture = { s.capture with published := t.capture.published } ∧
        (t.capture.published = true ↔ s.capture.published = true ∨
          (s.capture.offer ≠ none ∧ s.capture.state = .holding ∧ s.publishQueue.length ≤ 1)) ∧
        (∀ a, s.image.ownStream = some a → t.requester.published =
          (if s.capture.published = false ∧ t.capture.published = true ∧ s.image.sinkRole = true ∧ s.image.contributes a = true
            then s.requester.published.set a true else s.requester.published)) ∧
        ∀ v : State,
        v = countJudgment j (s.setBus { s.bus with
          hearing := none, driving := none, consecutiveFaults := 0 }) →
        t = (if o.reportFirst then deliver j o (freshPassed v) else freshPassed (deliver j o v))) ∧
      (∀ u : State, u.isMember = true → TestsPublished (u.setPublishQueue (u.publishQueue.drop 1)) (freshPassed u)) ∧
      (opens = false → ∀ r rest c, d.item = .repair → kindBits heard = 3 → s.responder.queue = r :: rest →
        s.responder.cursor = some c →
        t.counter .repairSegmentsSent = min 65535 (s.counter .repairSegmentsSent + 1) ∧
        OnlyWrites [.bus, .responder, .requester, .coverage, .landing, .engine, .port] s t ∧
        (∀ c' e gone, walk s.ring (piecesAfter c (requestPieces (ownEntry s) r.fields)) r.gone = .found c' e gone →
          t.responder = { s.responder with
            queue := { r with sent := min 4095 (r.sent + 1), gone := gone } :: rest, cursor := some c',
            slot := some (repairSegment s r e) }) ∧
        (∀ gone w, walk s.ring (piecesAfter c (requestPieces (ownEntry s) r.fields)) r.gone = .exhausted gone →
          w = (if s.responder.replies.length < 4 then
              s.setResponder { s.responder with
                replies := s.responder.replies ++
                  [{ requester := r.requester, tag := r.fields.tag,
                     outcome := if gone = 0 then .delivered else .partly, frame := r.fields.frame,
                     sent := min 4095 (r.sent + 1), gone := gone }] }
            else raise .statusesDropped 1 s) →
          t.responder = (serve rest w).responder ∧
          t.counter .statusesDropped = (serve rest w).counter .statusesDropped) ∧
        (∀ gone, walk s.ring (piecesAfter c (requestPieces (ownEntry s) r.fields)) r.gone = .exhausted gone → rest = [] →
          s.responder.replies.length < 4 →
          t.responder = { queue := [], cursor := none, slot := none,
                          replies := s.responder.replies ++
                            [{ requester := r.requester, tag := r.fields.tag,
                               outcome := if gone = 0 then .delivered else .partly, frame := r.fields.frame,
                               sent := min 4095 (r.sent + 1), gone := gone }] })) ∧
      (opens = false → ∀ tag, d.item = .request tag → kindBits heard = 4 →
        t.requester = { s.requester with
          entries := s.requester.entries.map (fun e => if e.tag = tag then { e with state := .sent, wait := 0 } else e) } ∧
        t.counter .requestsSent = min 65535 (s.counter .requestsSent + 1) ∧
        OnlyWrites [.bus, .responder, .requester, .port] s t) ∧
      (opens = false → d.item = .status → kindBits heard = 5 →
        t.responder = { s.responder with replies := s.responder.replies.drop 1 } ∧
        OnlyWrites [.bus, .responder, .requester, .port] s t) ∧
      (opens = true → ∀ m verdict, d.item = .mark m verdict →
        t.roundTimer = { number := m.round,
                         markTimer := some (s.image.roundPeriod * 10 + s.image.stationNumber * 5) } ∧
        t.settle =
          (if verdict = true ∧ m.kind ≠ .start then
            { s.settle with frame := s.settle.frame + 1, kind := m.kind, openAge := 0 }
          else { s.settle with openAge := min 65535 (s.settle.openAge + 1) }) ∧
        (j.discarded = false →
          t = (roundOrder o).foldl (arrive (.own m verdict)) (restartMarkTimer
            (s.setBus { s.bus with hearing := none, driving := none, consecutiveFaults := 0, markClaim := false }))) ∧
        ∀ u v : State, u.isMember = true → v = u.setSettle { u.settle with openAge := min 65535 (u.settle.openAge + 1) } →
          (verdict = false → arrive (.own m verdict) u .settle = v) ∧
          (verdict = true → m.kind = .commit → arrive (.own m verdict) u .settle = settleCommit v) ∧
          (verdict = true → m.kind = .abandon → arrive (.own m verdict) u .settle = settleAbandon .ownMark v))

/-! ## Round starts and settles -/

/-- The settle unit takes the forward difference from its settled frame S to the frame X of a MARK or STATE, modulo 65536: at 0
there is no settle, at 1 a settle of S+1, from 2 to 32767 a resync to X, at 32768 X is taken as behind, and from 32769 there is no
settle; and a distance of 32768 becomes 32767 or 32769 at the next settle of either side (R62). At 1 the kind decides: COMMIT and
ABANDON settle the open frame by the path of the MARK or STATE that brought them, and START is a resync (R73, R77). -/
def Obligations.FrameComparisonDecidesSettle : Prop :=
  (∀ f x : Frame, forward f x = (x.toNat + 65536 - f.toNat) % 65536 ∧
    (forward f x = 32768 → forward (f + 1) x = 32767 ∧ forward f (x + 1) = 32769)) ∧
  (∀ (s : State) (k : Nat) (m : MarkFields),
    (forward s.settle.frame m.settled = 0 → takeMark k m s = s) ∧
    (forward s.settle.frame m.settled = 1 → (takeMark k m s).settle.frame = s.settle.frame + 1 ∧
      takeMark k m s = match m.kind with
        | .commit => settleCommit s
        | .abandon => settleAbandon .receivedMark s
        | .start => resync m.settled .start s) ∧
    (2 ≤ forward s.settle.frame m.settled → forward s.settle.frame m.settled ≤ 32767 →
      takeMark k m s = resync m.settled m.kind s ∧ (takeMark k m s).settle.frame = m.settled) ∧
    (32768 ≤ forward s.settle.frame m.settled →
      takeMark k m s = post .laggingMark m.settled (toByte k) s ∧ (takeMark k m s).settle = s.settle)) ∧
  (∀ (s : State) (k : Nat) (m : StateFields), k ≠ s.image.stationNumber → m.digest = s.digest →
    (forward s.settle.frame m.settled = 0 → settleTakeState k m s = s) ∧
    (forward s.settle.frame m.settled = 1 → (settleTakeState k m s).settle.frame = s.settle.frame + 1 ∧
      settleTakeState k m s = match m.kind with
        | .commit => settleCommit s
        | .abandon => settleAbandon .state s
        | .start => resync m.settled .start s) ∧
    (2 ≤ forward s.settle.frame m.settled → forward s.settle.frame m.settled ≤ 32767 →
      settleTakeState k m s = resync m.settled m.kind s ∧ (settleTakeState k m s).settle.frame = m.settled) ∧
    (32768 ≤ forward s.settle.frame m.settled → settleTakeState k m s = s))

/-- The end of the burst that opens the MARK position is a round start: the mark timer restarts, and the round number is the
MARK's or one more. A MEMBER raises its open age, saturating, and takes a valid MARK whose frame is ahead as a settle or a resync;
any other MARK, and a burst that is none, leaves its settled frame and kind. A MARK of the frame already settled reaches nothing
but the round start's own blocks, and a discarded burst is counted (R17, R18, R19, R22, R23, R61, R71 to R75). The round start is
its five arrivals in the order the command gives, the settle unit's raising the open age before it takes the MARK. A MARK that
opened no round changes nothing (log entry 9). -/
def Obligations.RoundStartTakesMark : Prop :=
  ∀ (s : State) (heard : List Byte) (o : Orders), s.isMember = true → s.port.counters.length = 22 →
    (∀ k m, Hears s heard true (.valid ⟨k, .mark m⟩) →
      ∃ t, exec (.burstTaken heard o) s = .next t ∧ t.bus = (afterBurst s).bus ∧ t.station = s.station ∧
        t.roundTimer = { number := m.round,
                         markTimer := some (s.image.roundPeriod * 10 + s.image.stationNumber * 5) } ∧
        (1 ≤ forward s.settle.frame m.settled ∧ forward s.settle.frame m.settled ≤ 32767 →
          t.settle = { s.settle with frame := m.settled, kind := m.kind, openAge := 0 }) ∧
        (forward s.settle.frame m.settled = 0 ∨ 32768 ≤ forward s.settle.frame m.settled →
          t.settle = { s.settle with openAge := min 65535 (s.settle.openAge + 1) } ∧
          OnlyWrites [.bus, .roundTimer, .settle, .members, .capture, .ring, .publishQueue, .requester, .port] s t) ∧
        (forward s.settle.frame m.settled = 1 → m.kind = .commit →
          t.counter .commitsTaken = min 65535 (s.counter .commitsTaken + 1)) ∧
        (forward s.settle.frame m.settled = 1 → m.kind = .abandon →
          t.counter .abandonsTaken = min 65535 (s.counter .abandonsTaken + 1)) ∧
        t = (roundOrder o).foldl (arrive (.received k m)) (restartMarkTimer (afterBurst s)) ∧
        ∀ u : State, u.isMember = true → arrive (.received k m) u .settle =
          takeMark k m (u.setSettle { u.settle with openAge := min 65535 (u.settle.openAge + 1) })) ∧
    (∀ k m, Hears s heard false (.valid ⟨k, .mark m⟩) → exec (.burstTaken heard o) s = .next (afterBurst s)) ∧
    (roundOrder o).Perm [.number, .ageing, .silence, .waits, .settle] ∧
    (∀ j, j.discarded = true → Hears s heard true j →
      ∃ t, exec (.burstTaken heard o) s = .next t ∧ t.bus = (afterBurst s).bus ∧ t.station = s.station ∧
        t.roundTimer = { number := s.roundTimer.number + 1,
                         markTimer := some (s.image.roundPeriod * 10 + s.image.stationNumber * 5) } ∧
        t.settle = { s.settle with openAge := min 65535 (s.settle.openAge + 1) } ∧
        OnlyWrites [.bus, .roundTimer, .settle, .members, .capture, .ring, .publishQueue, .requester, .port] s t ∧
        t = (roundOrder o).foldl (arrive .nothing) (restartMarkTimer
          (raise (if j = .checkFailure then .checkFailures else .misplacedBursts) 1 (afterBurst s))) ∧
        (j = .checkFailure → t.counter .checkFailures = min 65535 (s.counter .checkFailures + 1)) ∧
        (j ≠ .checkFailure → t.counter .misplacedBursts = min 65535 (s.counter .misplacedBursts + 1)))

/-- An expiry of the mark timer. In LISTEN the timer restarts and the expiry is counted; the fourth is the one at which the
station joins alone. In MEMBER, with a burst on the medium, nothing is sent; with the medium idle a MARK is begun at once: COMMIT
of the open frame when there is a voter and every voter is ready, else ABANDON of it at open age D or more, else the settled frame
and kind unchanged, with the round number plus one. In LOADING and ISOLATED there is no timer to expire (R18, R19, R20, R50, R65
to R68; log entries 10 and 14). -/
def Obligations.MarkTimerExpirySendsMark : Prop :=
  ∀ s : State,
    (s.roundTimer.markTimer = none ∨ s.station.state = .loading ∨ s.station.state = .isolated →
      exec .markTimerExpiry s = .next s) ∧
    (s.station.state = .listen → s.roundTimer.markTimer ≠ none → s.station.silentExpiries < 3 →
      exec .markTimerExpiry s =
        .next ((s.setRoundTimer { s.roundTimer with
            markTimer := some (s.image.roundPeriod * 10 + s.image.stationNumber * 5) }).setStation
          { s.station with silentExpiries := s.station.silentExpiries + 1 })) ∧
    (s.station.state = .listen → s.roundTimer.markTimer ≠ none → 3 ≤ s.station.silentExpiries →
      exec .markTimerExpiry s = exec .joinAlone s) ∧
    (s.station.state = .member → s.roundTimer.markTimer ≠ none → s.bus.hearing ≠ none →
      exec .markTimerExpiry s = .next (s.setRoundTimer { s.roundTimer with markTimer := none })) ∧
    (s.station.state = .member → s.roundTimer.markTimer ≠ none → s.bus.hearing = none → s.bus.position = .tail →
      ∃ (t : State) (m : MarkFields) (verdict : Bool), exec .markTimerExpiry s = .next t ∧
        OnlyWrites [.bus, .roundTimer] s t ∧
        t.roundTimer = { s.roundTimer with markTimer := none } ∧
        t.bus = { s.bus with
          position := .mark, positionHeld := true, hearing := some ⟨true, false⟩, markClaim := true,
          driving := some ⟨.mark m verdict, true, encodeBurst ⟨s.image.stationNumber, .mark m⟩⟩ } ∧
        m.round = s.roundTimer.number + 1 ∧
        ∀ vs : List MemberEntry,
          vs = s.members.filter (fun e => e.eligible && (e.status == .present || e.status == .self)) →
          ∀ allReady : Prop,
          (allReady ↔ vs ≠ [] ∧ ∀ e ∈ vs,
            (e.status = .self → completeFor s (s.settle.frame + 1) = true) ∧
            (e.status = .present → ∃ r, e.record = some r ∧ r.settled = s.settle.frame ∧
              r.ready = some (s.settle.frame + 1))) →
          (allReady → m.settled = s.settle.frame + 1 ∧ m.kind = .commit ∧ verdict = true) ∧
          (¬ allReady → s.image.deadline ≤ s.settle.openAge →
            m.settled = s.settle.frame + 1 ∧ m.kind = .abandon ∧ verdict = true) ∧
          (¬ allReady → s.settle.openAge < s.image.deadline →
            m.settled = s.settle.frame ∧ m.kind = s.settle.kind ∧ verdict = false))

/-- A settle, by commit, abandon or resync, does everything in one step, its notices among it (log entry 12). The settle unit
advances and zeroes the open age, and eligibility is recomputed. A source empties its ring, publish queue and responder and locks
the new offer from the input state. A sink discards its landing queue, stops a placement, closes every repair entry and clears the
marks, and opens its coverage table for the new open frame, every claimed flag clear and every outstanding count at its total. At
bank control a pending swap waits, a COMMIT taken while complete sets a swap pending, and everything else reopens the back bank
with a clear; a COMMIT that finds the sink not complete is counted as a straggle. STRAGGLE, ABANDON APPLIED and RESYNC are posted
with their frames and details (R58, R63, R64, R88, R110, R113, R127 to R130, R149, R161). -/
def Obligations.SettleReachesEveryBlock : Prop :=
  ∀ (s t : State) (f : Frame) (k : SettleKind) (isCommit : Bool),
    (t = settleCommit s ∧ f = s.settle.frame + 1 ∧ k = .commit ∧ isCommit = true) ∨
      (∃ p, t = settleAbandon p s ∧ f = s.settle.frame + 1 ∧ k = .abandon ∧ isCommit = false) ∨
      (t = resync f k s ∧ isCommit = false) →
    t.settle = { s.settle with frame := f, kind := k, openAge := 0 } ∧
    t.members = s.members.map (fun e => { e with
      eligible := (e.status == .present && e.sink) || (e.status == .self && s.image.sinkRole) }) ∧
    (s.image.sourceRole = true →
      t.ring = [] ∧ t.publishQueue = [] ∧ t.responder = .reset ∧ t.capture.published = false ∧ t.capture.rowCount = 0 ∧
      t.capture.offer = (if s.capture.input = .live then some (f + 1) else none) ∧
      t.capture.state = (if s.capture.input = .live then .waiting else .dormant) ∧
      t.capture.disposition = (if s.capture.state = .capturing then .skipped else s.capture.disposition)) ∧
    (s.image.sourceRole = false → OnlyWrites [.settle, .members, .coverage, .landing, .engine, .banks, .freeSeq, .requester,
      .port] s t) ∧
    (s.image.sinkRole = true →
      t.landing = [] ∧ t.engine = .idle ∧ t.coverage.openFor = some (f + 1) ∧
      (s.coverage.openFor = some (s.settle.frame + 1) → f ≠ s.settle.frame → OpenedFor s.coverage t.coverage (f + 1)) ∧
      t.requester = { s.requester with
        entries := [], published := List.replicate 16 false, unrepairable := List.replicate 16 false } ∧
      t.banks.front = s.banks.front ∧ t.banks.frontBank = s.banks.frontBank ∧ t.banks.shown = s.banks.shown ∧
      (∀ g, s.banks.swapPending = some g → t.banks.swapPending = some g ∧ t.banks.clear = s.banks.clear) ∧
      (s.banks.swapPending = none → isCommit = true → completeFor s f = true →
        t.banks = { s.banks with swapPending := some f }) ∧
      (s.banks.swapPending = none → isCommit = false ∨ completeFor s f = false →
        t.banks.swapPending = none ∧ t.banks.backFrame = some (f + 1) ∧ t.banks.clear = .clearingBack)) ∧
    (s.image.sinkRole = false → OnlyWrites [.settle, .members, .capture, .ring, .publishQueue, .responder, .port] s t) ∧
    (s.port.counters.length = 22 →
      (t = settleCommit s → t.counter .commitsTaken = min 65535 (s.counter .commitsTaken + 1) ∧
        t.counter .straggles =
          if s.image.sinkRole = true ∧ (s.banks.swapPending ≠ none ∨ completeFor s f = false)
          then min 65535 (s.counter .straggles + 1) else s.counter .straggles) ∧
      (t = resync f k s → t.counter .resyncs = min 65535 (s.counter .resyncs + 1))) ∧
    (s.port.events.length < 32 →
      (t = settleCommit s → t.port.events =
        if s.image.sinkRole = true ∧ (s.banks.swapPending ≠ none ∨ completeFor s (s.settle.frame + 1) = false)
        then s.port.events ++ [⟨.straggle, s.roundTimer.number, s.settle.frame + 1,
          if s.banks.swapPending = none then 0 else 1⟩]
        else s.port.events) ∧
      (∀ p, t = settleAbandon p s → t.port.events = s.port.events ++
        [⟨.abandonApplied, s.roundTimer.number, s.settle.frame + 1,
          match p with
          | .ownMark => 0
          | .receivedMark => 1
          | .state => 2⟩]) ∧
      (∀ g x, t = resync g x s → t.port.events = s.port.events ++
        [⟨.resync, s.roundTimer.number, g, toByte (min 255 (forward s.settle.frame g))⟩]))

/-! ## Deliveries -/

/-- A valid STATE of another station taken by a MEMBER. With a differing digest its entry becomes FOREIGN, without a record, and
FOREIGN is posted once. With an equal digest its entry becomes PRESENT with count 0 and the STATE's roles and record, whatever the
order of the arrivals, a frame ahead is taken as a settle, a STATE that brings neither a settle nor an offer changes the table
alone, and a published offer of the open frame sets its stream's published mark. The station's own STATE heard back replaces the
SELF entry's record (R55, R56, R76 to R78, R137). The STATE is its three arrivals in the order the command gives. A published
offer runs a gap scan, which goes through the contributing streams in ascending id and appends an entry for each that meets the
conditions of R138, with the tag, columns and row ranges of R139 and R140. -/
def Obligations.StateReachesTableAndSettle : Prop :=
  ∀ (s : State) (heard : List Byte) (o : Orders) (k : Nat) (m : StateFields), s.isMember = true →
    Hears s heard false (.valid ⟨k, .state m⟩) → k < 32 → s.members.length = 32 →
    (k ≠ s.image.stationNumber → m.digest ≠ s.digest →
      exec (.burstTaken heard o) s = .next
        (let u := (afterBurst s).setMembers (s.members.set k ⟨.foreign, m.source, m.sink, 0, false, none⟩)
         if (s.member k).status = .foreign then u else post .foreign s.settle.frame (toByte k) u)) ∧
    (k ≠ s.image.stationNumber → m.digest = s.digest →
      ∃ t, exec (.burstTaken heard o) s = .next t ∧ t.bus = (afterBurst s).bus ∧
        (t.member k).status = .present ∧ (t.member k).source = m.source ∧ (t.member k).sink = m.sink ∧
        (t.member k).rounds = 0 ∧ (t.member k).record = some ⟨m.settled, m.kind, m.ready, m.shown, m.offer⟩ ∧
        (∀ i, i ≠ k → (t.member i).status = (s.member i).status ∧ (t.member i).record = (s.member i).record ∧
          (t.member i).rounds = (s.member i).rounds) ∧
        (1 ≤ forward s.settle.frame m.settled ∧ forward s.settle.frame m.settled ≤ 32767 →
          t.settle = { s.settle with frame := m.settled, kind := m.kind, openAge := 0 }) ∧
        (forward s.settle.frame m.settled = 0 ∨ 32768 ≤ forward s.settle.frame m.settled →
          OnlyWrites [.bus, .members, .requester, .port] s t ∧
          (m.offer = none →
            t = (let u := (afterBurst s).setMembers (s.members.set k
                   ⟨.present, m.source, m.sink, 0, (s.member k).status == .present && (s.member k).eligible,
                    some ⟨m.settled, m.kind, m.ready, m.shown, m.offer⟩⟩)
                 if (s.member k).status = .present then u else post .memberPresent s.settle.frame (toByte k) u)) ∧
          (∀ a, m.offer = some ⟨a, some (s.settle.frame + 1), true⟩ → s.image.sinkRole = true →
            s.image.contributes a = true → (s.image.stream a).publisher = k →
            t.requester.published = s.requester.published.set a true ∧
            ((s.member k).status = .present → t.requester =
              (gapScan (s.setRequester { s.requester with published := s.requester.published.set a true })).requester))) ∧
        t = (stateOrder o).foldl (stateArrive k m) (afterBurst s) ∧
        (stateOrder o).Perm [.record, .catchUp, .published] ∧
        (∀ u, stateArrive k m u .catchUp = settleTakeState k m u)) ∧
    (∀ u : State, gapScan u = ((List.range 16).filter u.image.contributes).foldl composeFor u) ∧
    (∀ (u : State) (a : Nat), (¬ Wanted u a → composeFor u a = u) ∧
      (Wanted u a → ∃ e, ComposedFor u a e ∧
        composeFor u a =
          u.setRequester { u.requester with entries := u.requester.entries ++ [e], lastTag := e.tag })) ∧
    (k = s.image.stationNumber →
      exec (.burstTaken heard o) s = .next ((afterBurst s).setMembers (s.members.set k
        { s.member k with record := some ⟨m.settled, m.kind, m.ready, m.shown, m.offer⟩ })))

/-- A REQUEST delivered to a MEMBER: one for another stream is set aside; one for its own stream is answered by the first of the
six tests it meets, in the order of R152: ignored, GONE, MALFORMED, a copy already queued, REFUSED, or accepted, in service at
once when the queue was empty. A service whose walk finds nothing ends at once: its STATUS is queued or, the reply queue full,
dropped and counted, and the next request enters service in the same step, until one finds a piece or none is left (R152 to R160).
-/
def Obligations.RequestIsTestedInOrder : Prop :=
  (∀ u : State, serve [] u = u.setResponder { u.responder with queue := [], cursor := none, slot := none }) ∧
  (∀ (u w : State) (r : QueuedRequest) (rest : List QueuedRequest),
    (∀ c e gone, walk u.ring (requestPieces (ownEntry u) r.fields) r.gone = .found c e gone →
      serve (r :: rest) u = u.setResponder { u.responder with
        queue := { r with gone := gone } :: rest, cursor := some c, slot := some (repairSegment u r e) }) ∧
    (∀ gone, walk u.ring (requestPieces (ownEntry u) r.fields) r.gone = .exhausted gone →
      w = (if u.responder.replies.length < 4 then
          u.setResponder { u.responder with
            replies := u.responder.replies ++
              [{ requester := r.requester, tag := r.fields.tag,
                 outcome := if r.sent = 0 then .gone else if gone = 0 then .delivered else .partly, frame := r.fields.frame,
                 sent := r.sent, gone := gone }] }
        else raise .statusesDropped 1 u) →
      serve (r :: rest) u = serve rest w)) ∧
  ∀ (s u : State) (heard : List Byte) (o : Orders) (k : Nat) (q : RequestFields), s.isMember = true →
    Hears s heard false (.valid ⟨k, .request q⟩) → u = afterBurst s →
    ∀ answer : Outcome → State,
    (∀ oc, answer oc =
      if s.responder.replies.length < 4 then
        u.setResponder { s.responder with replies := s.responder.replies ++ [⟨k, q.tag, oc, q.frame, 0, 0⟩] }
      else raise .statusesDropped 1 u) →
    ∀ malformed : Prop,
    (malformed ↔ q.lastColumn < q.firstColumn ∨ q.firstColumn < (ownEntry s).x0 ∨
      (ownEntry s).x0 + (ownEntry s).width ≤ q.lastColumn ∨
      (∃ r ∈ q.ranges, r.count = 0 ∨ r.first < (ownEntry s).y0 ∨
        (ownEntry s).y0 + (ownEntry s).height < r.first + r.count) ∨
      ¬ q.ranges.Pairwise (fun a b => a.first + a.count ≤ b.first)) →
    (s.image.ownStream ≠ some q.stream → exec (.burstTaken heard o) s = .next u) ∧
    (s.image.ownStream = some q.stream → k ≠ s.image.stationNumber → (s.member k).status ≠ .present →
      exec (.burstTaken heard o) s = .next (raise .requestsIgnored 1 u)) ∧
    (s.image.ownStream = some q.stream → k = s.image.stationNumber ∨ (s.member k).status = .present →
      (q.frame ≠ s.settle.frame + 1 ∨ s.capture.state = .dormant →
        exec (.burstTaken heard o) s = .next (answer .gone)) ∧
      (q.frame = s.settle.frame + 1 → s.capture.state ≠ .dormant →
        (malformed → exec (.burstTaken heard o) s = .next (answer .malformed)) ∧
        (¬ malformed →
          ((∃ r ∈ s.responder.queue, r.requester = k ∧ r.fields.tag = q.tag) →
            exec (.burstTaken heard o) s = .next u) ∧
          (¬ (∃ r ∈ s.responder.queue, r.requester = k ∧ r.fields.tag = q.tag) →
            (8 ≤ s.responder.queue.length →
              exec (.burstTaken heard o) s = .next (raise .requestsRefused 1 (answer .refused))) ∧
            (s.responder.queue.length < 8 → s.responder.queue ≠ [] →
              exec (.burstTaken heard o) s =
                .next (u.setResponder { s.responder with queue := s.responder.queue ++ [⟨k, q, 0, 0⟩] })) ∧
            (s.responder.queue = [] →
              (∀ c e gone, walk s.ring (requestPieces (ownEntry s) q) 0 = .found c e gone →
                exec (.burstTaken heard o) s =
                  .next (u.setResponder { s.responder with
                    queue := [⟨k, q, 0, gone⟩], cursor := some c,
                    slot := some (repairSegment s ⟨k, q, 0, 0⟩ e) })) ∧
              (∀ gone, walk s.ring (requestPieces (ownEntry s) q) 0 = .exhausted gone →
                s.responder.replies.length < 4 →
                exec (.burstTaken heard o) s =
                  .next (u.setResponder
                    { queue := [], cursor := none, slot := none,
                      replies := s.responder.replies ++ [⟨k, q.tag, .gone, q.frame, 0, gone⟩] })) ∧
              (∀ gone, walk s.ring (requestPieces (ownEntry s) q) 0 = .exhausted gone →
                4 ≤ s.responder.replies.length →
                exec (.burstTaken heard o) s =
                  .next ((raise .statusesDropped 1 u).setResponder
                    { queue := [], cursor := none, slot := none, replies := s.responder.replies })))))))

/-- A SEGMENT delivered to a MEMBER: without the sink role it changes nothing; a repair SEGMENT that names this station returns
the wait count of its SENT entry to 0; and the first test of R104 it meets decides the piece's fate: not for this tile, STALE,
EARLY, DUPLICATE, OVERFLOW, or claimed. A claim sets the flag, lowers the stream's outstanding count, appends the piece to the
landing queue and is counted, and the placement engine takes the head when its conditions hold (R103 to R108, R114, R142). A claim
in one of the rows of the stream's entry that leaves no gap in any of them closes the entry, which leaves the list without an
event, and a gap scan follows; any other claim leaves the repair list (R143, R148). -/
def Obligations.SegmentMeetsItsFate : Prop :=
  ∀ (s u : State) (heard : List Byte) (o : Orders) (k : Nat) (p : Piece) (mark : Option RepairMark), s.isMember = true →
    Hears s heard false (.valid ⟨k, .segment ⟨p, mark⟩⟩) →
    (s.image.sinkRole = false → exec (.burstTaken heard o) s = .next (afterBurst s)) ∧
    (s.image.sinkRole = true →
      u = (match mark with
        | none => afterBurst s
        | some r =>
          if r.requester = s.image.stationNumber then
            (afterBurst s).setRequester { s.requester with
              entries := s.requester.entries.map (fun e =>
                if e.tag = r.tag then (if e.state = .sent then { e with wait := 0 } else e) else e) }
          else afterBurst s) →
      (s.image.contributes p.stream = false ∨ coverageEntry s.image s.coverage p.stream p.row p.index = none →
        exec (.burstTaken heard o) s = .next u) ∧
      (∀ e, s.image.contributes p.stream = true →
        coverageEntry s.image s.coverage p.stream p.row p.index = some e →
        (32768 ≤ forward (s.settle.frame + 1) p.frame → exec (.burstTaken heard o) s = .next (raise .stale 1 u)) ∧
        (1 ≤ forward (s.settle.frame + 1) p.frame → forward (s.settle.frame + 1) p.frame ≤ 32767 →
          exec (.burstTaken heard o) s = .next (raise .early 1 u)) ∧
        (p.frame = s.settle.frame + 1 → e.claimed = true →
          exec (.burstTaken heard o) s = .next (raise .duplicate 1 u)) ∧
        (p.frame = s.settle.frame + 1 → e.claimed = false → 16 ≤ s.landing.length →
          exec (.burstTaken heard o) s = .next (raise .overflow 1 u)) ∧
        (p.frame = s.settle.frame + 1 → e.claimed = false → s.landing.length < 16 →
          s.coverage.outstanding.length = 16 → p.stream < 16 → s.port.counters.length = 22 →
          ∃ t, exec (.burstTaken heard o) s = .next t ∧
            OnlyWrites [.bus, .coverage, .landing, .engine, .requester, .port] s t ∧
            t.landing = s.landing ++ [p] ∧
            coverageEntry s.image t.coverage p.stream p.row p.index = some { e with claimed := true } ∧
            t.coverage.outstanding.getD p.stream 0 = s.coverage.outstanding.getD p.stream 0 - 1 ∧
            t.counter .piecesClaimed = min 65535 (s.counter .piecesClaimed + 1) ∧
            t.engine = (if s.engine = .idle ∧ s.banks.clear = .idle ∧ s.banks.swapPending = none ∧
                s.banks.backFrame = some (s.settle.frame + 1) then .placing else s.engine) ∧
            t.port.events = s.port.events ∧
            ((∀ x ∈ s.requester.entries, x.stream ≠ p.stream) → t.requester = u.requester) ∧
            (∀ x ∈ s.requester.entries, x.stream = p.stream → x.state ≠ .closed →
              (s.requester.entries.map (·.stream)).Nodup → (s.requester.entries.map (·.tag)).Nodup →
              ∀ done : Prop,
              (done ↔ (∃ r ∈ x.ranges, r.first ≤ p.row ∧ p.row < r.first + r.count) ∧
                ∀ y, HasGap t p.stream y → ¬ ∃ r ∈ x.ranges, r.first ≤ y ∧ y < r.first + r.count) →
              (¬ done → t.requester = u.requester) ∧
              (done → t.requester = (gapScan ((s.setCoverage t.coverage).setRequester { u.requester with
                entries := u.requester.entries.filter (fun z => z.tag != x.tag) })).requester)))))

/-- A STATUS delivered to a MEMBER with the sink role: one addressed to another station is set aside, one that matches no entry is
an orphan, and one that matches an entry closes it with its outcome, or, REFUSED, starts the back-off of a SENT entry and at the
third attempt closes it. A closed entry leaves the list and a gap scan follows, so that an entry with its tag is a new one;
PARTIAL, GONE and MALFORMED mark the stream unrepairable and, with the closing REFUSED, post REPAIR FAILED (R144 to R146, R148).
-/
def Obligations.StatusClosesItsEntry : Prop :=
  ∀ (s : State) (heard : List Byte) (o : Orders) (k : Nat) (m : StatusFields), s.isMember = true →
    Hears s heard false (.valid ⟨k, .status m⟩) →
    (s.image.sinkRole = false ∨ m.requester ≠ s.image.stationNumber →
      exec (.burstTaken heard o) s = .next (afterBurst s)) ∧
    (s.image.sinkRole = true → m.requester = s.image.stationNumber →
      ∀ isMatch : RepairEntry → Prop,
      (∀ e, isMatch e ↔ e.tag = m.tag ∧ e.frame = m.frame ∧ (s.image.stream e.stream).publisher = k ∧
        (e.state = .sent ∨ (e.state = .composed ∧ 2 ≤ e.attempts))) →
      ((∀ e ∈ s.requester.entries, ¬ isMatch e) →
        exec (.burstTaken heard o) s = .next (raise .orphanStatuses 1 (afterBurst s))) ∧
      (∀ e ∈ s.requester.entries, isMatch e → (s.requester.entries.map (·.tag)).Nodup →
        ∃ t, exec (.burstTaken heard o) s = .next t ∧ OnlyWrites [.bus, .requester, .port] s t ∧
          (m.outcome ≠ .refused →
            s.requester.entries.filter (fun x => x.tag != e.tag) <+: t.requester.entries ∧
            (∀ x ∈ t.requester.entries, x.tag = e.tag → x.state = .composed ∧ x.attempts = 1) ∧
            t.requester.unrepairable =
              (if m.outcome = .delivered then s.requester.unrepairable
               else s.requester.unrepairable.set e.stream true) ∧
            t.requester = (gapScan (s.setRequester { s.requester with
              entries := s.requester.entries.filter (fun x => x.tag != e.tag),
              unrepairable := t.requester.unrepairable })).requester) ∧
          (m.outcome = .delivered → t.port = s.port) ∧
          (m.outcome = .partly → t.port = (post .repairFailed e.frame (toByte (16 + e.stream)) s).port) ∧
          (m.outcome = .gone → t.port = (post .repairFailed e.frame (toByte (32 + e.stream)) s).port) ∧
          (m.outcome = .malformed → t.port = (post .repairFailed e.frame (toByte (48 + e.stream)) s).port) ∧
          (m.outcome = .refused → e.state = .sent → e.backoff = 0 → e.attempts < 3 →
            t.port = s.port ∧
            t.requester = { s.requester with
              entries := s.requester.entries.map (fun x =>
                if x.tag = e.tag then { x with backoff := 1 + s.image.stationNumber % 4 } else x) }) ∧
          (m.outcome = .refused → e.state = .sent → e.backoff = 0 → 3 ≤ e.attempts →
            s.requester.entries.filter (fun x => x.tag != e.tag) <+: t.requester.entries ∧
            (∀ x ∈ t.requester.entries, x.tag = e.tag → x.state = .composed ∧ x.attempts = 1) ∧
            t.requester.unrepairable = s.requester.unrepairable ∧
            t.requester = (gapScan (s.setRequester { s.requester with
              entries := s.requester.entries.filter (fun x => x.tag != e.tag) })).requester ∧
            t.port = (post .repairFailed e.frame (toByte (64 + e.stream)) s).port) ∧
          (m.outcome = .refused → e.state ≠ .sent ∨ e.backoff ≠ 0 → t = afterBurst s)))

/-! ## Joining -/

/-- The fourth silent expiry in LISTEN: the station is a MEMBER with settled frame 0, kind START, round number 0 and the mark
timer restarted, aligned with its position counter at TAIL; every PRESENT entry is ABSENT and no entry is eligible; a source locks
the offer of frame 1 from its input state and a sink opens its back bank and coverage table for frame 1 without a clear; MEMBER
ABSENT is posted for each PRESENT entry and JOINED with detail 1 (R50, R51, R58, R88, R110, R122). The order of those events and
their round number 0 are the model's choice (log entry 8), and an expiry that is not the fourth is not this command's (log entry
1). -/
def Obligations.JoinAloneMakesMember : Prop :=
  ∀ s : State,
    (s.station.state = .listen → s.roundTimer.markTimer ≠ none → 3 ≤ s.station.silentExpiries → s.members.length = 32 →
      s.banks.swapPending = none →
      ∃ t, exec .joinAlone s = .next t ∧
        t.station.state = .member ∧ t.station.fault = s.station.fault ∧
        t.settle = { frame := 0, kind := .start, openAge := 0, lastMark := none } ∧
        t.roundTimer = { number := 0, markTimer := some (s.image.roundPeriod * 10 + s.image.stationNumber * 5) } ∧
        t.bus = { s.bus with aligned := true, position := .tail, positionHeld := false, hearing := none } ∧
        t.members = s.members.map (fun e => { e with
          status := if e.status = .present then .absent else e.status, eligible := false }) ∧
        t.loader = s.loader ∧ t.scan = s.scan ∧
        (s.image.sourceRole = true →
          t.capture.offer = (if s.capture.input = .live then some 1 else none) ∧
          t.capture.state = (if s.capture.input = .live then .waiting else .dormant)) ∧
        (s.image.sinkRole = true →
          t.banks.backFrame = some 1 ∧ t.banks.clear = s.banks.clear ∧ t.coverage.openFor = some 1 ∧
          OpenedFor s.coverage t.coverage 1 ∧ t.requester.entries = []) ∧
        (∀ absent : List Nat, absent = (List.range 32).filter (fun k => (s.member k).status == .present) →
          s.port.events.length + absent.length < 32 →
          t.port = { s.port with
            events := s.port.events ++ absent.map (fun k => ⟨.memberAbsent, 0, s.settle.frame, toByte k⟩) ++
              [⟨.joined, 0, 0, 1⟩] })) ∧
    (s.station.state ≠ .listen ∨ s.roundTimer.markTimer = none ∨ s.station.silentExpiries < 3 →
      exec .joinAlone s = .next s)

/-- Joining by count. Unaligned, a valid MARK aligns the station and is its first round start, and any other candidate is dropped
uncounted. Aligned, each round start below the (A+1)th raises the join count and records a valid MARK. The (A+1)th makes the
station a MEMBER with the frame and kind chosen from the last MARK value and the PRESENT records that are ahead, after the table
has aged its entries, whatever the order of the other arrivals, and posts JOINED with detail 0 (R21, R48, R49, R51, R57, R58).
That the command names the whole round start, and that all its arrivals come before the join, is the model's reading (log entries
1 and 28). -/
def Obligations.JoinByCountMakesMember : Prop :=
  (∀ (s : State) (heard : List Byte) (o : Orders) (h : Hearing), s.station.state = .listen → s.bus.aligned = false →
    s.bus.hearing = some h →
    (∀ k m, judge s.image .mark false heard = .valid ⟨k, .mark m⟩ → s.station.joinCount < s.image.absenceLimit →
      ∃ t, exec (.burstTaken heard o) s = .next t ∧
        t.station = { s.station with joinCount := s.station.joinCount + 1 } ∧
        t.bus = { s.bus with aligned := true, position := .mark, positionHeld := true, hearing := none } ∧
        t.roundTimer = { number := m.round,
                         markTimer := some (s.image.roundPeriod * 10 + s.image.stationNumber * 5) } ∧
        t.settle = { s.settle with lastMark := some (m.settled, m.kind) }) ∧
    ((∀ k m, judge s.image .mark false heard ≠ .valid ⟨k, .mark m⟩) →
      exec (.burstTaken heard o) s = .next (s.setBus { s.bus with hearing := none }))) ∧
  (∀ (s : State) (heard : List Byte) (o : Orders) (j : Judgment) (v : Frame × SettleKind) (n : RoundNo),
    s.station.state = .listen → Hears s heard true j → s.members.length = 32 →
    (∃ k m, j = .valid ⟨k, .mark m⟩ ∧ v = (m.settled, m.kind) ∧ n = m.round) ∨
      (j.discarded = true ∧ s.settle.lastMark = some v ∧ n = s.roundTimer.number + 1) →
    (s.station.joinCount < s.image.absenceLimit →
      exec (.joinByCount heard o) s = .next s ∧
      ∃ t, exec (.burstTaken heard o) s = .next t ∧
        t.station = { s.station with joinCount := s.station.joinCount + 1 } ∧
        t.settle = { s.settle with lastMark := some v } ∧ t.bus = (afterBurst s).bus ∧
        OnlyWrites [.bus, .roundTimer, .station, .settle, .members, .capture, .ring, .publishQueue, .requester, .port] s t) ∧
    (s.image.absenceLimit ≤ s.station.joinCount → s.banks.swapPending = none →
      ∃ t, exec (.joinByCount heard o) s = .next t ∧ exec (.burstTaken heard o) s = .next t ∧
        t.station = { s.station with state := .member, joinCount := s.station.joinCount + 1 } ∧
        t.bus = (afterBurst s).bus ∧
        t.roundTimer = { number := n, markTimer := some (s.image.roundPeriod * 10 + s.image.stationNumber * 5) } ∧
        (∀ aged : List MemberEntry,
          aged = s.members.map (MemberEntry.aged s.image.absenceLimit) →
          ∀ best : Frame × SettleKind,
          best = aged.foldl (fun b e =>
            match e.record with
            | none => b
            | some r => if e.status = .present ∧ 1 ≤ forward b.1 r.settled ∧ forward b.1 r.settled ≤ 32767
                then (r.settled, r.kind) else b) v →
          t.settle = { frame := best.1, kind := best.2, openAge := 0, lastMark := none } ∧
          t.members = aged.map (fun e => { e with eligible := e.status == .present && e.sink }) ∧
          (s.image.sourceRole = true →
            t.capture.offer = (if t.capture.input = .live then some (best.1 + 1) else none)) ∧
          (s.image.sinkRole = true →
            t.banks.backFrame = some (best.1 + 1) ∧ t.banks.clear = s.banks.clear ∧
            t.coverage.openFor = some (best.1 + 1) ∧ OpenedFor s.coverage t.coverage (best.1 + 1)) ∧
          (t.port.events.length < 32 → t.port.events.getLast? = some ⟨.joined, n, best.1, 0⟩))))

/-! ## Limits counted in round starts -/

/-- A round start raises the count of every PRESENT entry, and an entry whose count reaches A becomes ABSENT with its eligible
flag cleared, keeping its roles, record and count, whatever the round start carries and in every order of its arrivals; MEMBER
ABSENT is posted for each, in LISTEN as in MEMBER (R48, R57, R81). That the command names the whole round start and that the
events stand in ascending station number are the model's readings (log entries 1 and 8). -/
def Obligations.SilentMembersBecomeAbsent : Prop :=
  (∀ (s : State) (heard : List Byte) (o : Orders) (j : Judgment), Hears s heard true j → s.members.length = 32 →
    (∃ e ∈ s.members, e.status = .present ∧ s.image.absenceLimit ≤ min 15 (e.rounds + 1)) →
    ∃ t, exec (.memberAbsent heard o) s = .next t ∧ exec (.burstTaken heard o) s = .next t ∧
      ∀ k, k < 32 →
        (t.member k).source = (s.member k).source ∧ (t.member k).sink = (s.member k).sink ∧
        (t.member k).record = (s.member k).record ∧
        ((s.member k).status ≠ .present →
          (t.member k).status = (s.member k).status ∧ (t.member k).rounds = (s.member k).rounds) ∧
        ((s.member k).status = .present →
          (t.member k).rounds = min 15 ((s.member k).rounds + 1) ∧
          (min 15 ((s.member k).rounds + 1) < s.image.absenceLimit → (t.member k).status = .present) ∧
          (s.image.absenceLimit ≤ min 15 ((s.member k).rounds + 1) →
            (t.member k).status = .absent ∧ (t.member k).eligible = false))) ∧
  (∀ s : State, s.members.length = 32 → s.port.events = [] →
    (tableRoundStart s).port.events =
      ((List.range 32).filter (fun k =>
        (s.member k).status == .present && s.image.absenceLimit ≤ min 15 ((s.member k).rounds + 1))).map
        (fun k => ⟨.memberAbsent, s.roundTimer.number, s.settle.frame, toByte k⟩)) ∧
  (∀ (s : State) (heard : List Byte) (o : Orders), s.bus.hearing = none ∨
      (∀ e ∈ s.members, e.status = .present → min 15 (e.rounds + 1) < s.image.absenceLimit) →
    exec (.memberAbsent heard o) s = .next s)

/-- The round start that brings the silence count of a LIVE input to the limit: the input is LOST, in LISTEN as in MEMBER. Without
a settle at that round start, a capture in progress ends with fill rows, HOLDING and SKIPPED, with the published flag set if the
publish queue is empty, and every other capture state and the offer stay; INPUT LOST is posted with detail 1 where a capture was
ended and 0 otherwise (R85, R86, R92, R93, R94, R138; log entry 1 for the command, 22 for the row count after fill rows). -/
def Obligations.SilentInputIsLost : Prop :=
  (∀ (s : State) (heard : List Byte) (o : Orders) (j : Judgment), Hears s heard true j → s.image.sourceRole = true →
    s.capture.input = .live → s.image.silenceLimit ≤ min 255 (s.capture.silence + 1) →
    ∃ t, exec (.inputLost heard o) s = .next t ∧ exec (.burstTaken heard o) s = .next t ∧ t.capture.input = .lost ∧
      (MakesNoSettle s j → t.port.events.length < 32 →
        ∃ r, (r = s.roundTimer.number ∨ r = t.roundTimer.number) ∧
          ⟨.inputLost, r, s.settle.frame + 1, if s.capture.state = .capturing then 1 else 0⟩ ∈ t.port.events) ∧
      (s.isMember = true → MakesNoSettle s j → s.capture.state ≠ .capturing →
        t.capture = { s.capture with input := .lost, silence := min 255 (s.capture.silence + 1) } ∧
        t.ring = s.ring ∧ t.publishQueue = s.publishQueue) ∧
      (s.isMember = true → MakesNoSettle s j → s.capture.state = .capturing →
        t.capture.state = .holding ∧ t.capture.disposition = .skipped ∧ t.capture.offer = s.capture.offer ∧
        (t.capture.published = true ↔ s.capture.published = true ∨ (s.capture.offer ≠ none ∧ t.publishQueue = [])) ∧
        (s.capture.rowCount ≤ (ownEntry s).height → t.capture.rowCount = (ownEntry s).height) ∧
        (WithinCapacity s →
          t.counter .fillPieces = min 65535 (s.counter .fillPieces +
            ((ownEntry s).height - s.capture.rowCount) * (ownEntry s).pieces)))) ∧
  (∀ (u : State) (content : RoundContent), u.isMember = true → u.image.sourceRole = true → u.capture.input = .live →
    u.image.silenceLimit ≤ min 255 (u.capture.silence + 1) → u.capture.state = .capturing →
    TestsPublished u (arrive content u .silence)) ∧
  (∀ (s : State) (heard : List Byte) (o : Orders), s.bus.hearing = none ∨ s.image.sourceRole = false ∨
      s.capture.input = .lost ∨ min 255 (s.capture.silence + 1) < s.image.silenceLimit →
    exec (.inputLost heard o) s = .next s)

/-- A round start that makes no settle, at the repair list of a MEMBER with the sink role: a back-off goes down and at 0 the entry
returns to COMPOSED with one more attempt; a SENT entry's wait count goes up and at 6 the entry returns to COMPOSED with one more
attempt, or at the third attempt closes as NO RESPONSE; a COMPOSED entry stays as it is (R142, R146, R147, R148; log entry 1 for
the two commands, 23 for the wait count after a back-off). -/
def Obligations.WaitsAndBackoffsEnd : Prop :=
  (∀ (s : State) (heard : List Byte) (o : Orders) (j : Judgment), s.isMember = true → s.image.sinkRole = true →
    Hears s heard true j → MakesNoSettle s j → RepairListInOrder s.requester →
    ∃ t, exec (.burstTaken heard o) s = .next t ∧
      ((∃ e ∈ s.requester.entries, e.state = .sent ∧ e.backoff = 1) → exec (.backoffEnd heard o) s = .next t) ∧
      ((∃ e ∈ s.requester.entries, e.state = .sent ∧ e.backoff = 0 ∧ e.wait = 5) →
        exec (.repairTimeout heard o) s = .next t) ∧
      ∀ e ∈ s.requester.entries,
        (e.state = .composed → e ∈ t.requester.entries) ∧
        (e.state = .sent → e.backoff = 1 →
          { e with state := .composed, attempts := e.attempts + 1, wait := 0, backoff := 0 } ∈ t.requester.entries) ∧
        (e.state = .sent → 2 ≤ e.backoff → { e with backoff := e.backoff - 1 } ∈ t.requester.entries) ∧
        (e.state = .sent → e.backoff = 0 → e.wait < 5 → { e with wait := e.wait + 1 } ∈ t.requester.entries) ∧
        (e.state = .sent → e.backoff = 0 → e.wait = 5 → e.attempts < 3 →
          { e with state := .composed, attempts := e.attempts + 1, wait := 0 } ∈ t.requester.entries) ∧
        (e.state = .sent → e.backoff = 0 → e.wait = 5 → e.attempts = 3 →
          ∀ x ∈ t.requester.entries, x.tag = e.tag → x.state = .composed ∧ x.attempts = 1)) ∧
  (∀ (s : State) (e : RepairEntry),
    (closeEntry .noResponse e s).port = (post .repairFailed e.frame (toByte (80 + e.stream)) s).port) ∧
  (∀ (s : State) (heard : List Byte) (o : Orders), s.bus.hearing = none ∨ s.isMember = false ∨
      (∀ e ∈ s.requester.entries, e.state = .sent → e.backoff ≠ 1) →
    exec (.backoffEnd heard o) s = .next s) ∧
  (∀ (s : State) (heard : List Byte) (o : Orders), s.bus.hearing = none ∨ s.isMember = false ∨
      (∀ e ∈ s.requester.entries, e.state = .sent → 0 < e.backoff ∨ e.wait < 5) →
    exec (.repairTimeout heard o) s = .next s)

/-! ## Capture -/

/-- A frame start. In LISTEN and MEMBER the input becomes LIVE with silence count 0, and INPUT LIVE is posted when it was LOST;
the shape-fault flag returns to clear. In MEMBER, WAITING begins a capture with row count 0; CAPTURING ends the capture with fill
rows and HOLDING, with the published flag set if the publish queue is empty; CAPTURING, HOLDING and DORMANT skip the new input
frame and count it. In LOADING and without the source role nothing is taken (R84, R86, R87, R89, R93, R94, R138); in ISOLATED the
input frame is skipped uncounted (R96; log entry 17). -/
def Obligations.FrameStartByCaptureState : Prop :=
  ∀ s : State,
    (s.image.sourceRole = false ∨ s.station.state = .loading → exec .frameStart s = .next s) ∧
    (s.image.sourceRole = true → s.station.state = .isolated →
      exec .frameStart s = .next (s.setCapture { s.capture with disposition := .skipped, shapeFaultPosted := false })) ∧
    (∀ p : StatusPort,
      p = (if s.capture.input = .lost then (post .inputLive (s.settle.frame + 1) 0 s).port else s.port) →
      (s.image.sourceRole = true → s.station.state = .listen →
        exec .frameStart s = .next ((s.setCapture { s.capture with
          input := .live, silence := 0, shapeFaultPosted := false }).setPort p)) ∧
      (s.image.sourceRole = true → s.station.state = .member → s.capture.state = .waiting →
        exec .frameStart s = .next ((s.setCapture { s.capture with
          input := .live, silence := 0, shapeFaultPosted := false, state := .capturing, rowCount := 0,
          disposition := .taken }).setPort p)) ∧
      (s.image.sourceRole = true → s.station.state = .member → s.capture.state = .holding ∨ s.capture.state = .dormant →
        exec .frameStart s = .next (raise .inputFramesSkipped 1 ((s.setCapture { s.capture with
          input := .live, silence := 0, shapeFaultPosted := false, disposition := .skipped }).setPort p)))) ∧
    (s.image.sourceRole = true → s.station.state = .member → s.capture.state = .capturing →
      ∃ t, exec .frameStart s = .next t ∧
        OnlyWrites [.capture, .ring, .publishQueue, .port, .requester] s t ∧
        t.capture.state = .holding ∧ t.capture.disposition = .skipped ∧ t.capture.shapeFaultPosted = false ∧
        t.capture.offer = s.capture.offer ∧ t.capture.input = .live ∧ t.capture.silence = 0 ∧
        TestsPublished s t ∧
        (s.port.counters.length = 22 →
          t.counter .inputFramesSkipped = min 65535 (s.counter .inputFramesSkipped + 1)) ∧
        (WithinCapacity s →
          t.counter .fillPieces = min 65535 (s.counter .fillPieces +
            ((ownEntry s).height - s.capture.rowCount) * (ownEntry s).pieces)) ∧
        (s.capture.input = .live → s.capture.shapeFaultPosted = false → s.port.events.length < 32 →
          t.port.events = s.port.events ++
            [⟨.shapeFault, s.roundTimer.number, s.capture.offer.getD (s.settle.frame + 1), 4⟩]))

/-- A row completion while CAPTURING with the input frame TAKEN: the row is padded with background or cut to the stream width and
cut into pieces; the pieces enter the retain ring, which keeps the newest 1024; the row is admitted whole to the publish queue
when it has room and is counted as withheld otherwise; the row count goes up, to HOLDING at the stream height; and the first short
or long row of an input frame posts SHAPE FAULT. The published flag is set where HOLDING is entered with the publish queue empty.
An extra row in HOLDING posts SHAPE FAULT 3 once; a row of a skipped input frame, a row in WAITING or DORMANT whatever the
disposition (log entry 31), and one that no MEMBER with the source role takes, is ignored (R84, R85, R90, R91, R94, R97, R99,
R138). -/
def Obligations.RowCompletionCapturesRow : Prop :=
  ∀ (s : State) (pixels : List Pixel),
    (s.image.sourceRole = false ∨ s.station.state ≠ .member → exec (.rowCompletion pixels) s = .next s) ∧
    (s.image.sourceRole = true → s.station.state = .member →
      (s.capture.disposition = .skipped → s.capture.state ≠ .capturing →
        exec (.rowCompletion pixels) s = .next s) ∧
      (s.capture.state = .waiting ∨ s.capture.state = .dormant → exec (.rowCompletion pixels) s = .next s) ∧
      (s.capture.disposition = .taken → s.capture.state = .holding →
        (s.capture.shapeFaultPosted = true → exec (.rowCompletion pixels) s = .next s) ∧
        (s.capture.shapeFaultPosted = false →
          exec (.rowCompletion pixels) s = .next
            ((post .shapeFault (s.capture.offer.getD (s.settle.frame + 1)) 3 s).setCapture
              { s.capture with shapeFaultPosted := true }))) ∧
      (∀ a e, s.capture.disposition = .taken → s.capture.state = .capturing → s.image.ownStream = some a →
        e = s.image.stream a → s.ring.length ≤ 1024 →
        ∀ (row : List Pixel) (pieces : List Piece),
        row = (if pixels.length < e.width then
          pixels ++ List.replicate (e.width - pixels.length) s.image.background else pixels.take e.width) →
        pieces = (List.range e.pieces).map (fun i =>
          ⟨a, s.capture.offer.getD 0, e.y0 + s.capture.rowCount, i, e.piecePixels i, e.format, false,
            packPayload e.format ((row.drop (256 * i)).take (e.piecePixels i))⟩) →
        ∃ t, exec (.rowCompletion pixels) s = .next t ∧
          OnlyWrites [.capture, .ring, .publishQueue, .port, .requester] s t ∧ TestsPublished s t ∧
          t.ring = (s.ring ++ pieces.map (fun p => RingEntry.mk p.row p.index p.count p.fill p.payload)).drop
            (s.ring.length + pieces.length - 1024) ∧
          t.publishQueue = (if pieces.length ≤ 64 - s.publishQueue.length then s.publishQueue ++ pieces
            else s.publishQueue) ∧
          (s.port.counters.length = 22 → t.counter .rowsWithheld =
            (if pieces.length ≤ 64 - s.publishQueue.length then s.counter .rowsWithheld
             else min 65535 (s.counter .rowsWithheld + 1))) ∧
          t.capture.rowCount = s.capture.rowCount + 1 ∧ t.capture.silence = 0 ∧
          t.capture.offer = s.capture.offer ∧ t.capture.disposition = .taken ∧
          t.capture.state = (if s.capture.rowCount + 1 = e.height then .holding else .capturing) ∧
          (pixels.length = e.width ∨ s.capture.shapeFaultPosted = true → t.port.events = s.port.events) ∧
          (pixels.length ≠ e.width → s.capture.shapeFaultPosted = false → s.port.events.length < 32 →
            t.capture.shapeFaultPosted = true ∧
            t.port.events = s.port.events ++
              [⟨.shapeFault, s.roundTimer.number, s.capture.offer.getD (s.settle.frame + 1),
                if pixels.length < e.width then 1 else 2⟩])))

/-! ## Placement, clears and the scan -/

/-- The completed placement of the head writes the pixels of its placed span at their panel addresses in the back bank and nothing
else, and the head leaves the landing queue; the completed clear leaves every pixel of the back bank background and the clear
state IDLE; after either the engine takes the head when its conditions hold. With the engine IDLE, or no clear of the back bank in
progress, there is nothing to complete (R114, R116, R120, R123; log entry 10). -/
def Obligations.PlacementAndClearWriteBackBank : Prop :=
  (∀ (s : State) (p : Piece) (rest : List Piece) (e : CoverageEntry), s.engine = .placing → s.landing = p :: rest →
    coverageEntry s.image s.coverage p.stream p.row p.index = some e → s.banks.back.wf = true →
    ∃ t, exec .placementComplete s = .next t ∧ OnlyWrites [.banks, .landing, .engine] s t ∧ t.landing = rest ∧
      t.engine = (if rest ≠ [] ∧ s.banks.clear = .idle ∧ s.banks.swapPending = none ∧
        s.banks.backFrame = some (s.settle.frame + 1) then .placing else .idle) ∧
      t.banks = s.banks.setBack t.banks.back ∧
      ∀ addressOf : Nat → Nat,
      (∀ k, addressOf k =
        (s.image.panelPosition (e.expected.pieceFirst + k - s.image.tileX) (p.row - s.image.tileY)).2 *
            s.image.panelWidth +
          (s.image.panelPosition (e.expected.pieceFirst + k - s.image.tileX) (p.row - s.image.tileY)).1) →
      ∀ written : List Nat,
      written = (List.range (p.pixels s.image.background).length).filter (fun k =>
        e.expected.placedFirst ≤ e.expected.pieceFirst + k && e.expected.pieceFirst + k ≤ e.expected.placedLast) →
      (∀ a, (∀ k ∈ written, addressOf k ≠ a) → t.banks.back.read a = s.banks.back.read a) ∧
      (∀ k ∈ written, (written.map addressOf).Nodup →
        t.banks.back.read (addressOf k) = (p.pixels s.image.background).getD k 0)) ∧
  (∀ s : State, s.engine = .idle → exec .placementComplete s = .next s) ∧
  (∀ s : State, s.banks.clear = .clearingBack →
    ∃ t, exec .bankClearComplete s = .next t ∧ OnlyWrites [.banks, .engine] s t ∧
      t.banks = { s.banks.setBack t.banks.back with clear := .idle } ∧
      (∀ a, t.banks.back.read a = s.image.background) ∧
      t.engine = (if s.engine = .idle ∧ s.landing ≠ [] ∧ s.banks.swapPending = none ∧
        s.banks.backFrame = some (s.settle.frame + 1) then .placing else s.engine)) ∧
  (∀ s : State, s.banks.clear ≠ .clearingBack → exec .bankClearComplete s = .next s)

/-- A scan start: a pending swap is carried out first, so that the old back bank is the front bank, the frame waiting is the shown
frame, a swap is counted, and the back bank is reopened for the open frame with a clear, the coverage table being opened for it
unless it already is; then the timer restarts and row 0 of the front bank is output, PW pixels and 8 clocks of row strobe, with
POVS pulsed at its first clock (log entry 32 for the lengths of both pulses). The scan then goes on row by row (in steps with no
command waiting: the model's choice, log entry 6), and its end leaves it IDLE, with POD held at 0. With the scan-period timer
stopped there is no scan start (R110, R122, R131, R132, R133; log entry 10). -/
def Obligations.ScanStartSwapsAndScans : Prop :=
  ∀ s : State,
    (s.scan.timer = none → exec .scanStart s = .next s) ∧
    (s.scan.timer ≠ none →
      ∃ t, exec .scanStart s = .next t ∧ OnlyWrites [.banks, .freeSeq, .coverage, .port, .scan] s t ∧
        t.scan = { s.scan with timer := some s.image.scanPeriod, position := .row 0 } ∧
        panelOutput t = (List.range s.image.panelWidth).map
            (fun x => { pod := t.banks.frontBank.read x, povs := x == 0, pohs := false }) ++
          List.replicate 8 { pod := 0, povs := false, pohs := true } ∧
        (s.banks.swapPending = none → OnlyWrites [.scan] s t) ∧
        (∀ f, s.banks.swapPending = some f →
          t.banks.front ≠ s.banks.front ∧ t.banks.frontBank = s.banks.back ∧ t.banks.shown = some f ∧
          t.banks.swapPending = none ∧ t.banks.backFrame = some (s.settle.frame + 1) ∧
          t.banks.clear = .clearingBack ∧
          (s.coverage.openFor = some (s.settle.frame + 1) → t.coverage = s.coverage) ∧
          (s.coverage.openFor ≠ some (s.settle.frame + 1) →
            OpenedFor s.coverage t.coverage (s.settle.frame + 1)) ∧
          (s.port.counters.length = 22 → t.counter .swaps = min 65535 (s.counter .swaps + 1)))) ∧
    exec .scanEnd s = .next (s.setScan { s.scan with position := .idle }) ∧
    (s.scan.position = .idle → panelOutput s = [{ pod := 0, povs := false, pohs := false }]) ∧
    (∀ y, s.scan.position = .row y → y ≠ 0 → panelOutput s = (List.range s.image.panelWidth).map
        (fun x => { pod := s.banks.frontBank.read (y * s.image.panelWidth + x), povs := false, pohs := false }) ++
      List.replicate 8 { pod := 0, povs := false, pohs := true }) ∧
    (s.pending = [] →
      (s.scan.position = .idle → step s = .next s) ∧
      (∀ y, s.scan.position = .row y → y + 1 < s.image.panelHeight →
        step s = .next (s.setScan { s.scan with position := .row (y + 1) })) ∧
      (∀ y, s.scan.position = .row y → s.image.panelHeight ≤ y + 1 → step s = .next s))

/-! ## Invariants -/

/-- The invariants hold right after reset. The join count and silent-expiry count 0, no burst being heard and the RESET pin
released, which they read there, are the model's choice (log entry 7). -/
def Obligations.InvariantsHoldAtReset : Prop :=
  WithinCapacity State.reset ∧ BanksCanonical State.reset ∧ PlacementHeldBack State.reset ∧ BusInOrder State.reset ∧
    OfferInOrder State.reset ∧ CoverageCounts State.reset.coverage ∧ RepairListInOrder State.reset.requester ∧
    LandingInOrder State.reset ∧ RingInOrder State.reset

/-- Every step keeps every queue, list, ring, record and count within what the manual gives it, the join count, the row count and
the pieces sent and gone among them (R34, R35, R48, R54, R61, R85, R87, R97, R99, R112, R136, R151, R165, R166), with what these
bounds rest on (a source's stream has a row, and in LOADING both counts are 0, the join count by the model's choice, log entry 7);
and keeps both banks in canonical form, which is the model's own (it lists no pixel that reads as an unlisted one). -/
def Obligations.StepKeepsCapacities : Prop :=
  ∀ s t : State, step s = .next t →
    (WithinCapacity s → WithinCapacity t) ∧ (BanksCanonical s → BanksCanonical t)

/-- Every step keeps placement held back behind clears and swaps, and a sink's work to MEMBER (R114, R123, R124, R134); that a
clear stopped by the entry to ISOLATED leaves the clear state IDLE is the model's choice (log entry 17). -/
def Obligations.StepKeepsPlacementHeldBack : Prop :=
  ∀ s t : State, step s = .next t → PlacementHeldBack s → PlacementHeldBack t

/-- Every step keeps the bus interface in order: only a MEMBER drives, the counter is at TAIL while unaligned, the mark timer runs
in LISTEN and is stopped in LOADING and ISOLATED (R16, R17, R19, R21, R31); and keeps the capture states to what R87 says of the
offer, the published flag to R94, and the retain ring to R97: in capture order, no two entries sharing a row and piece index. -/
def Obligations.StepKeepsBusAndOfferInOrder : Prop :=
  ∀ s t : State, step s = .next t →
    (BusInOrder s → OfferInOrder s → BusInOrder t ∧ OfferInOrder t) ∧ (OfferInOrder s → RingInOrder s → RingInOrder t)

/-- Every step keeps each outstanding count equal to the number of clear flags of its stream, and the totals equal to the expected
pieces; and keeps the landing queue in order: no piece twice, each of the open frame with its claimed flag set, the table open for
that frame (R108, R109, R110, R112). -/
def Obligations.StepKeepsCoverageCounts : Prop :=
  ∀ s t : State, step s = .next t →
    (CoverageCounts s.coverage → CoverageCounts t.coverage) ∧ (LandingInOrder s → LandingInOrder t)

/-- Every step keeps the repair list in order: active entries only, one for a stream, distinct tags below 8, attempts 1 to 3, and
back-offs only while SENT below the third attempt (R136, R138, R140, R146, R147). -/
def Obligations.StepKeepsRepairListInOrder : Prop :=
  ∀ s t : State, step s = .next t → RepairListInOrder s.requester → RepairListInOrder t.requester

/-- A MEMBER's settled frame moves only forward: every command but RESET leaves it as it is or moves it 1 to 32767 ahead, with the
open age at 0 (R63). -/
def Obligations.SettledFrameMovesForward : Prop :=
  ∀ (c : Instr) (s t : State), s.isMember = true → c ≠ .reset → exec c s = .next t →
    t.settle.frame = s.settle.frame ∨
      (1 ≤ forward s.settle.frame t.settle.frame ∧ forward s.settle.frame t.settle.frame ≤ 32767 ∧ t.settle.openAge = 0)

/-- From the first scan start on, only the back bank is written: no command but RESET and the end of the start-up clear changes
the bank that was the front bank when it came (R121). -/
def Obligations.FrontBankIsNotWritten : Prop :=
  ∀ (c : Instr) (s t : State), PlacementHeldBack s → c ≠ .reset → c ≠ .startUpClearComplete → exec c s = .next t →
    t.banks.named s.banks.front = s.banks.named s.banks.front

/-- What only RESET ends: once the read is over, the loader's image, digest and plan stay as they are under every other command
(R45), and a station that is ISOLATED stays so, with its settled frame, members, bus, stores and banks as they stand, posting no
event and raising no counter; only the panel scan, the board's reading of the status port, the mark of the input frame and the
reset pin go on (R53; log entry 17 for the mark of the input frame, 33 for the last MARK value). -/
def Obligations.OnlyResetReconfigures : Prop :=
  ∀ (c : Instr) (s t : State), c ≠ .reset → exec c s = .next t →
    (s.loader.reading = false → t.loader = s.loader) ∧
    (s.station.state = .isolated → PlacementHeldBack s →
      OnlyWrites [.scan, .port, .capture, .resetAsserted] s t ∧
      t.capture = { s.capture with
        disposition := t.capture.disposition, shapeFaultPosted := t.capture.shapeFaultPosted } ∧
      (isPortCommand c = false → t.port = s.port) ∧
      (c ≠ .clearCounters → t.port.counters = s.port.counters) ∧
      (c ≠ .transactionComplete → t.port.events = s.port.events ∧ t.port.dropped = s.port.dropped) ∧
      (c = .clearCounters → t.port.counters = s.port.counters ∨ t.port.counters = List.replicate 22 0) ∧
      (c = .transactionComplete → (t.port.events = s.port.events ∨ t.port.events = s.port.events.tail) ∧
        t.port.dropped ≤ s.port.dropped))

end
end

