-- ==== Sys2Proof/Laws/Banks.lean ====
section
/-! SUPPORT. The banks as pixel stores: every operation keeps the canonical form, and what is read after a write. -/

namespace Sys2Proof.Machine

/-- The address lies above an optional bound. -/
def aboveBound (low : Option Nat) (a : Nat) : Prop := ∀ k, low = some k → k < a

theorem risingFrom_cons (low : Option Nat) (a : Nat) (v : Pixel) (l : List (Nat × Pixel)) :
    risingFrom low ((a, v) :: l) = true ↔ aboveBound low a ∧ risingFrom (some a) l = true := by
  cases low <;> simp [risingFrom, aboveBound]

theorem risingFrom_weaken {a b : Nat} (h : a ≤ b) (l : List (Nat × Pixel)) (hl : risingFrom (some b) l = true) :
    risingFrom (some a) l = true := by
  cases l with
  | nil => rfl
  | cons p l =>
    obtain ⟨c, v⟩ := p
    rw [risingFrom_cons] at hl ⊢
    refine ⟨?_, hl.2⟩
    rintro k ⟨rfl⟩
    exact lt_of_le_of_lt h (hl.1 b rfl)

/-- Nothing is listed at or below the bound. -/
theorem readCells_below (d : Pixel) (a k : Nat) (h : a ≤ k) (l : List (Nat × Pixel)) (hl : risingFrom (some k) l = true) :
    readCells d a l = d := by
  induction l generalizing k with
  | nil => rfl
  | cons p l ih =>
    obtain ⟨c, v⟩ := p
    rw [risingFrom_cons] at hl
    have hc : a < c := lt_of_le_of_lt h (hl.1 k rfl)
    rw [readCells, if_neg (Nat.ne_of_lt hc)]
    exact ih c (Nat.le_of_lt hc) hl.2

theorem writeCells_rising (keep : Bool) (a : Nat) (v : Pixel) (l : List (Nat × Pixel)) (low : Option Nat)
    (ha : aboveBound low a) (hl : risingFrom low l = true) : risingFrom low (writeCells keep a v l) = true := by
  induction l generalizing low with
  | nil =>
    unfold writeCells
    split
    · exact (risingFrom_cons _ _ _ _).mpr ⟨ha, rfl⟩
    · rfl
  | cons p l ih =>
    obtain ⟨b, w⟩ := p
    have hb := (risingFrom_cons _ _ _ _).mp hl
    rw [writeCells]
    by_cases h1 : a < b
    · rw [if_pos h1]
      split
      · refine (risingFrom_cons _ _ _ _).mpr ⟨ha, (risingFrom_cons _ _ _ _).mpr ⟨?_, hb.2⟩⟩
        rintro k ⟨rfl⟩
        exact h1
      · exact hl
    · rw [if_neg h1]
      by_cases h2 : a = b
      · subst h2
        rw [if_pos rfl]
        split
        · exact (risingFrom_cons _ _ _ _).mpr ⟨ha, hb.2⟩
        · cases low with
          | none =>
            cases l with
            | nil => rfl
            | cons q l =>
              obtain ⟨c, x⟩ := q
              have hc := (risingFrom_cons _ _ _ _).mp hb.2
              exact (risingFrom_cons _ _ _ _).mpr ⟨fun _ hk => by simp at hk, hc.2⟩
          | some k => exact risingFrom_weaken (Nat.le_of_lt (ha k rfl)) l hb.2
      · rw [if_neg h2]
        refine (risingFrom_cons _ _ _ _).mpr ⟨hb.1, ih (some b) ?_ hb.2⟩
        rintro k ⟨rfl⟩
        omega

theorem writeCells_all (q : Nat × Pixel → Bool) (keep : Bool) (a : Nat) (v : Pixel) (l : List (Nat × Pixel))
    (hv : keep = true → q (a, v) = true) (hl : l.all q = true) : (writeCells keep a v l).all q = true := by
  induction l with
  | nil =>
    unfold writeCells
    split
    · simpa using hv (by assumption)
    · rfl
  | cons p l ih =>
    obtain ⟨b, w⟩ := p
    simp only [List.all_cons, Bool.and_eq_true] at hl
    have hrest := ih hl.2
    rw [writeCells]
    split
    · split
      · simp [hv (by assumption), hl.1, hl.2]
      · simp [hl.1, hl.2]
    · split
      · split
        · simp [hv (by assumption), hl.2]
        · exact hl.2
      · simp [hl.1, hrest]

/-- A write keeps the canonical form. -/
theorem Bank.write_wf (b : Bank) (a : Nat) (v : Pixel) (h : b.wf = true) : (b.write a v).wf = true := by
  simp only [Bank.wf, Bool.and_eq_true] at h ⊢
  refine ⟨writeCells_rising _ _ _ _ _ ?_ h.1, writeCells_all _ _ _ _ _ (fun hk => hk) h.2⟩
  rintro k ⟨⟩

/-- Writes one after another keep the canonical form. -/
theorem Bank.writeAll_wf (l : List (Nat × Pixel)) : ∀ b : Bank, b.wf = true → (b.writeAll l).wf = true := by
  induction l with
  | nil => exact fun _ h => h
  | cons p l ih => exact fun b h => ih _ (b.write_wf p.1 p.2 h)

/-- A cleared bank has the canonical form. -/
theorem Bank.cleared_wf (c : Pixel) : (Bank.cleared c).wf = true := rfl

/-- A bank of unknown contents has the canonical form. -/
theorem Bank.unknown_wf (seq : Nat) : ({ fill := .unknown seq, cells := [] } : Bank).wf = true := rfl

/-- Both banks have the canonical form after reset. -/
theorem banks_reset_wf (seq : Nat) : (BankControl.reset seq).bank0.wf = true ∧ (BankControl.reset seq).bank1.wf = true :=
  ⟨rfl, rfl⟩

theorem readCells_writeCells (d : Pixel) (keep : Bool) (a c : Nat) (v : Pixel) (l : List (Nat × Pixel)) (low : Option Nat)
    (hl : risingFrom low l = true) :
    readCells d c (writeCells keep a v l) = if c = a then (if keep then v else d) else readCells d c l := by
  induction l generalizing low with
  | nil =>
    unfold writeCells
    cases keep <;> by_cases h : c = a <;> simp [readCells, h]
  | cons p l ih =>
    obtain ⟨b, w⟩ := p
    have hb := (risingFrom_cons _ _ _ _).mp hl
    rw [writeCells]
    by_cases h1 : a < b
    · rw [if_pos h1]
      cases keep
      · by_cases h : c = a
        · subst h
          simp only [Bool.false_eq_true, if_false, if_true]
          rw [readCells, if_neg (Nat.ne_of_lt h1)]
          exact readCells_below d c b (Nat.le_of_lt h1) l hb.2
        · simp [h]
      · by_cases h : c = a <;> simp [readCells, h]
    · rw [if_neg h1]
      by_cases h2 : a = b
      · subst h2
        rw [if_pos rfl]
        cases keep
        · by_cases h : c = a
          · subst h
            simpa using readCells_below d c c (Nat.le_refl c) l hb.2
          · simp [readCells, h]
        · by_cases h : c = a <;> simp [readCells, h]
      · rw [if_neg h2, readCells, readCells, ih (some b) hb.2]
        by_cases h : c = a
        · subst h
          simp [h2]
        · simp [h]

/-- Reading after a write: the pixel written gives the value, every other one what it gave before. -/
theorem Bank.read_write (b : Bank) (a c : Nat) (v : Pixel) (h : b.wf = true) :
    (b.write a v).read c = if c = a then v else b.read c := by
  simp only [Bank.wf, Bool.and_eq_true] at h
  unfold Bank.read Bank.write
  rw [readCells_writeCells _ _ _ _ _ _ none h.1]
  by_cases hc : c = a
  · subst hc
    by_cases hf : b.fill = .colour v
    · simp [hf, BankFill.read]
    · simp [hf]
  · simp [hc]

/-- A pixel that no write of a list names keeps its value. -/
theorem Bank.read_writeAll_other (c : Nat) (l : List (Nat × Pixel)) :
    ∀ b : Bank, b.wf = true → (∀ p ∈ l, p.1 ≠ c) → (b.writeAll l).read c = b.read c := by
  induction l with
  | nil => exact fun _ _ _ => rfl
  | cons p l ih =>
    intro b h hl
    have h1 := ih (b.write p.1 p.2) (b.write_wf _ _ h) (fun q hq => hl q (List.mem_cons_of_mem _ hq))
    have h2 : c ≠ p.1 := fun e => hl p List.mem_cons_self e.symm
    unfold Bank.writeAll at h1 ⊢
    rw [List.foldl_cons, h1, b.read_write _ _ _ h, if_neg h2]

/-- A pixel that exactly one write of a list names holds the value written. -/
theorem Bank.read_writeAll_of_mem (l : List (Nat × Pixel)) :
    ∀ b : Bank, b.wf = true → (l.map (·.1)).Nodup → ∀ p ∈ l, (b.writeAll l).read p.1 = p.2 := by
  induction l with
  | nil => intro _ _ _ p hp; cases hp
  | cons q l ih =>
    intro b h hn p hp
    rw [List.map_cons, List.nodup_cons] at hn
    have hw := b.write_wf q.1 q.2 h
    rcases List.mem_cons.mp hp with rfl | hp
    · have hne : ∀ r ∈ l, r.1 ≠ p.1 := fun r hr e => hn.1 (e ▸ List.mem_map_of_mem hr)
      have h1 := Bank.read_writeAll_other p.1 l (b.write p.1 p.2) hw hne
      unfold Bank.writeAll at h1 ⊢
      rw [List.foldl_cons, h1, b.read_write _ _ _ h, if_pos rfl]
    · exact ih _ hw hn.2 p hp

/-- A cleared bank reads as its colour everywhere. -/
theorem Bank.read_cleared (c : Pixel) (a : Nat) : (Bank.cleared c).read a = c := rfl

end Sys2Proof.Machine
end

