-- ==== Sys2Proof/Laws/State.lean ====
section
/-! SUPPORT. The named updates of State: what each writes, and that it writes nothing else. -/

namespace Sys2Proof.Machine.State

variable (s : State)

@[simp] theorem setLoader_loader (x : Loader) : (s.setLoader x).loader = x := rfl
@[simp] theorem setLoader_station (x : Loader) : (s.setLoader x).station = s.station := rfl
@[simp] theorem setLoader_bus (x : Loader) : (s.setLoader x).bus = s.bus := rfl
@[simp] theorem setLoader_roundTimer (x : Loader) : (s.setLoader x).roundTimer = s.roundTimer := rfl
@[simp] theorem setLoader_members (x : Loader) : (s.setLoader x).members = s.members := rfl
@[simp] theorem setLoader_settle (x : Loader) : (s.setLoader x).settle = s.settle := rfl
@[simp] theorem setLoader_capture (x : Loader) : (s.setLoader x).capture = s.capture := rfl
@[simp] theorem setLoader_ring (x : Loader) : (s.setLoader x).ring = s.ring := rfl
@[simp] theorem setLoader_publishQueue (x : Loader) : (s.setLoader x).publishQueue = s.publishQueue := rfl
@[simp] theorem setLoader_coverage (x : Loader) : (s.setLoader x).coverage = s.coverage := rfl
@[simp] theorem setLoader_landing (x : Loader) : (s.setLoader x).landing = s.landing := rfl
@[simp] theorem setLoader_engine (x : Loader) : (s.setLoader x).engine = s.engine := rfl
@[simp] theorem setLoader_banks (x : Loader) : (s.setLoader x).banks = s.banks := rfl
@[simp] theorem setLoader_scan (x : Loader) : (s.setLoader x).scan = s.scan := rfl
@[simp] theorem setLoader_requester (x : Loader) : (s.setLoader x).requester = s.requester := rfl
@[simp] theorem setLoader_responder (x : Loader) : (s.setLoader x).responder = s.responder := rfl
@[simp] theorem setLoader_port (x : Loader) : (s.setLoader x).port = s.port := rfl
@[simp] theorem setLoader_resetAsserted (x : Loader) : (s.setLoader x).resetAsserted = s.resetAsserted := rfl
@[simp] theorem setLoader_freeSeq (x : Loader) : (s.setLoader x).freeSeq = s.freeSeq := rfl
@[simp] theorem setLoader_pending (x : Loader) : (s.setLoader x).pending = s.pending := rfl

@[simp] theorem setStation_loader (x : Station) : (s.setStation x).loader = s.loader := rfl
@[simp] theorem setStation_station (x : Station) : (s.setStation x).station = x := rfl
@[simp] theorem setStation_bus (x : Station) : (s.setStation x).bus = s.bus := rfl
@[simp] theorem setStation_roundTimer (x : Station) : (s.setStation x).roundTimer = s.roundTimer := rfl
@[simp] theorem setStation_members (x : Station) : (s.setStation x).members = s.members := rfl
@[simp] theorem setStation_settle (x : Station) : (s.setStation x).settle = s.settle := rfl
@[simp] theorem setStation_capture (x : Station) : (s.setStation x).capture = s.capture := rfl
@[simp] theorem setStation_ring (x : Station) : (s.setStation x).ring = s.ring := rfl
@[simp] theorem setStation_publishQueue (x : Station) : (s.setStation x).publishQueue = s.publishQueue := rfl
@[simp] theorem setStation_coverage (x : Station) : (s.setStation x).coverage = s.coverage := rfl
@[simp] theorem setStation_landing (x : Station) : (s.setStation x).landing = s.landing := rfl
@[simp] theorem setStation_engine (x : Station) : (s.setStation x).engine = s.engine := rfl
@[simp] theorem setStation_banks (x : Station) : (s.setStation x).banks = s.banks := rfl
@[simp] theorem setStation_scan (x : Station) : (s.setStation x).scan = s.scan := rfl
@[simp] theorem setStation_requester (x : Station) : (s.setStation x).requester = s.requester := rfl
@[simp] theorem setStation_responder (x : Station) : (s.setStation x).responder = s.responder := rfl
@[simp] theorem setStation_port (x : Station) : (s.setStation x).port = s.port := rfl
@[simp] theorem setStation_resetAsserted (x : Station) : (s.setStation x).resetAsserted = s.resetAsserted := rfl
@[simp] theorem setStation_freeSeq (x : Station) : (s.setStation x).freeSeq = s.freeSeq := rfl
@[simp] theorem setStation_pending (x : Station) : (s.setStation x).pending = s.pending := rfl

@[simp] theorem setBus_loader (x : Bus) : (s.setBus x).loader = s.loader := rfl
@[simp] theorem setBus_station (x : Bus) : (s.setBus x).station = s.station := rfl
@[simp] theorem setBus_bus (x : Bus) : (s.setBus x).bus = x := rfl
@[simp] theorem setBus_roundTimer (x : Bus) : (s.setBus x).roundTimer = s.roundTimer := rfl
@[simp] theorem setBus_members (x : Bus) : (s.setBus x).members = s.members := rfl
@[simp] theorem setBus_settle (x : Bus) : (s.setBus x).settle = s.settle := rfl
@[simp] theorem setBus_capture (x : Bus) : (s.setBus x).capture = s.capture := rfl
@[simp] theorem setBus_ring (x : Bus) : (s.setBus x).ring = s.ring := rfl
@[simp] theorem setBus_publishQueue (x : Bus) : (s.setBus x).publishQueue = s.publishQueue := rfl
@[simp] theorem setBus_coverage (x : Bus) : (s.setBus x).coverage = s.coverage := rfl
@[simp] theorem setBus_landing (x : Bus) : (s.setBus x).landing = s.landing := rfl
@[simp] theorem setBus_engine (x : Bus) : (s.setBus x).engine = s.engine := rfl
@[simp] theorem setBus_banks (x : Bus) : (s.setBus x).banks = s.banks := rfl
@[simp] theorem setBus_scan (x : Bus) : (s.setBus x).scan = s.scan := rfl
@[simp] theorem setBus_requester (x : Bus) : (s.setBus x).requester = s.requester := rfl
@[simp] theorem setBus_responder (x : Bus) : (s.setBus x).responder = s.responder := rfl
@[simp] theorem setBus_port (x : Bus) : (s.setBus x).port = s.port := rfl
@[simp] theorem setBus_resetAsserted (x : Bus) : (s.setBus x).resetAsserted = s.resetAsserted := rfl
@[simp] theorem setBus_freeSeq (x : Bus) : (s.setBus x).freeSeq = s.freeSeq := rfl
@[simp] theorem setBus_pending (x : Bus) : (s.setBus x).pending = s.pending := rfl

@[simp] theorem setRoundTimer_loader (x : RoundTimer) : (s.setRoundTimer x).loader = s.loader := rfl
@[simp] theorem setRoundTimer_station (x : RoundTimer) : (s.setRoundTimer x).station = s.station := rfl
@[simp] theorem setRoundTimer_bus (x : RoundTimer) : (s.setRoundTimer x).bus = s.bus := rfl
@[simp] theorem setRoundTimer_roundTimer (x : RoundTimer) : (s.setRoundTimer x).roundTimer = x := rfl
@[simp] theorem setRoundTimer_members (x : RoundTimer) : (s.setRoundTimer x).members = s.members := rfl
@[simp] theorem setRoundTimer_settle (x : RoundTimer) : (s.setRoundTimer x).settle = s.settle := rfl
@[simp] theorem setRoundTimer_capture (x : RoundTimer) : (s.setRoundTimer x).capture = s.capture := rfl
@[simp] theorem setRoundTimer_ring (x : RoundTimer) : (s.setRoundTimer x).ring = s.ring := rfl
@[simp] theorem setRoundTimer_publishQueue (x : RoundTimer) : (s.setRoundTimer x).publishQueue = s.publishQueue := rfl
@[simp] theorem setRoundTimer_coverage (x : RoundTimer) : (s.setRoundTimer x).coverage = s.coverage := rfl
@[simp] theorem setRoundTimer_landing (x : RoundTimer) : (s.setRoundTimer x).landing = s.landing := rfl
@[simp] theorem setRoundTimer_engine (x : RoundTimer) : (s.setRoundTimer x).engine = s.engine := rfl
@[simp] theorem setRoundTimer_banks (x : RoundTimer) : (s.setRoundTimer x).banks = s.banks := rfl
@[simp] theorem setRoundTimer_scan (x : RoundTimer) : (s.setRoundTimer x).scan = s.scan := rfl
@[simp] theorem setRoundTimer_requester (x : RoundTimer) : (s.setRoundTimer x).requester = s.requester := rfl
@[simp] theorem setRoundTimer_responder (x : RoundTimer) : (s.setRoundTimer x).responder = s.responder := rfl
@[simp] theorem setRoundTimer_port (x : RoundTimer) : (s.setRoundTimer x).port = s.port := rfl
@[simp] theorem setRoundTimer_resetAsserted (x : RoundTimer) : (s.setRoundTimer x).resetAsserted = s.resetAsserted := rfl
@[simp] theorem setRoundTimer_freeSeq (x : RoundTimer) : (s.setRoundTimer x).freeSeq = s.freeSeq := rfl
@[simp] theorem setRoundTimer_pending (x : RoundTimer) : (s.setRoundTimer x).pending = s.pending := rfl

@[simp] theorem setMembers_loader (x : List MemberEntry) : (s.setMembers x).loader = s.loader := rfl
@[simp] theorem setMembers_station (x : List MemberEntry) : (s.setMembers x).station = s.station := rfl
@[simp] theorem setMembers_bus (x : List MemberEntry) : (s.setMembers x).bus = s.bus := rfl
@[simp] theorem setMembers_roundTimer (x : List MemberEntry) : (s.setMembers x).roundTimer = s.roundTimer := rfl
@[simp] theorem setMembers_members (x : List MemberEntry) : (s.setMembers x).members = x := rfl
@[simp] theorem setMembers_settle (x : List MemberEntry) : (s.setMembers x).settle = s.settle := rfl
@[simp] theorem setMembers_capture (x : List MemberEntry) : (s.setMembers x).capture = s.capture := rfl
@[simp] theorem setMembers_ring (x : List MemberEntry) : (s.setMembers x).ring = s.ring := rfl
@[simp] theorem setMembers_publishQueue (x : List MemberEntry) : (s.setMembers x).publishQueue = s.publishQueue := rfl
@[simp] theorem setMembers_coverage (x : List MemberEntry) : (s.setMembers x).coverage = s.coverage := rfl
@[simp] theorem setMembers_landing (x : List MemberEntry) : (s.setMembers x).landing = s.landing := rfl
@[simp] theorem setMembers_engine (x : List MemberEntry) : (s.setMembers x).engine = s.engine := rfl
@[simp] theorem setMembers_banks (x : List MemberEntry) : (s.setMembers x).banks = s.banks := rfl
@[simp] theorem setMembers_scan (x : List MemberEntry) : (s.setMembers x).scan = s.scan := rfl
@[simp] theorem setMembers_requester (x : List MemberEntry) : (s.setMembers x).requester = s.requester := rfl
@[simp] theorem setMembers_responder (x : List MemberEntry) : (s.setMembers x).responder = s.responder := rfl
@[simp] theorem setMembers_port (x : List MemberEntry) : (s.setMembers x).port = s.port := rfl
@[simp] theorem setMembers_resetAsserted (x : List MemberEntry) : (s.setMembers x).resetAsserted = s.resetAsserted := rfl
@[simp] theorem setMembers_freeSeq (x : List MemberEntry) : (s.setMembers x).freeSeq = s.freeSeq := rfl
@[simp] theorem setMembers_pending (x : List MemberEntry) : (s.setMembers x).pending = s.pending := rfl

@[simp] theorem setSettle_loader (x : Settle) : (s.setSettle x).loader = s.loader := rfl
@[simp] theorem setSettle_station (x : Settle) : (s.setSettle x).station = s.station := rfl
@[simp] theorem setSettle_bus (x : Settle) : (s.setSettle x).bus = s.bus := rfl
@[simp] theorem setSettle_roundTimer (x : Settle) : (s.setSettle x).roundTimer = s.roundTimer := rfl
@[simp] theorem setSettle_members (x : Settle) : (s.setSettle x).members = s.members := rfl
@[simp] theorem setSettle_settle (x : Settle) : (s.setSettle x).settle = x := rfl
@[simp] theorem setSettle_capture (x : Settle) : (s.setSettle x).capture = s.capture := rfl
@[simp] theorem setSettle_ring (x : Settle) : (s.setSettle x).ring = s.ring := rfl
@[simp] theorem setSettle_publishQueue (x : Settle) : (s.setSettle x).publishQueue = s.publishQueue := rfl
@[simp] theorem setSettle_coverage (x : Settle) : (s.setSettle x).coverage = s.coverage := rfl
@[simp] theorem setSettle_landing (x : Settle) : (s.setSettle x).landing = s.landing := rfl
@[simp] theorem setSettle_engine (x : Settle) : (s.setSettle x).engine = s.engine := rfl
@[simp] theorem setSettle_banks (x : Settle) : (s.setSettle x).banks = s.banks := rfl
@[simp] theorem setSettle_scan (x : Settle) : (s.setSettle x).scan = s.scan := rfl
@[simp] theorem setSettle_requester (x : Settle) : (s.setSettle x).requester = s.requester := rfl
@[simp] theorem setSettle_responder (x : Settle) : (s.setSettle x).responder = s.responder := rfl
@[simp] theorem setSettle_port (x : Settle) : (s.setSettle x).port = s.port := rfl
@[simp] theorem setSettle_resetAsserted (x : Settle) : (s.setSettle x).resetAsserted = s.resetAsserted := rfl
@[simp] theorem setSettle_freeSeq (x : Settle) : (s.setSettle x).freeSeq = s.freeSeq := rfl
@[simp] theorem setSettle_pending (x : Settle) : (s.setSettle x).pending = s.pending := rfl

@[simp] theorem setCapture_loader (x : Capture) : (s.setCapture x).loader = s.loader := rfl
@[simp] theorem setCapture_station (x : Capture) : (s.setCapture x).station = s.station := rfl
@[simp] theorem setCapture_bus (x : Capture) : (s.setCapture x).bus = s.bus := rfl
@[simp] theorem setCapture_roundTimer (x : Capture) : (s.setCapture x).roundTimer = s.roundTimer := rfl
@[simp] theorem setCapture_members (x : Capture) : (s.setCapture x).members = s.members := rfl
@[simp] theorem setCapture_settle (x : Capture) : (s.setCapture x).settle = s.settle := rfl
@[simp] theorem setCapture_capture (x : Capture) : (s.setCapture x).capture = x := rfl
@[simp] theorem setCapture_ring (x : Capture) : (s.setCapture x).ring = s.ring := rfl
@[simp] theorem setCapture_publishQueue (x : Capture) : (s.setCapture x).publishQueue = s.publishQueue := rfl
@[simp] theorem setCapture_coverage (x : Capture) : (s.setCapture x).coverage = s.coverage := rfl
@[simp] theorem setCapture_landing (x : Capture) : (s.setCapture x).landing = s.landing := rfl
@[simp] theorem setCapture_engine (x : Capture) : (s.setCapture x).engine = s.engine := rfl
@[simp] theorem setCapture_banks (x : Capture) : (s.setCapture x).banks = s.banks := rfl
@[simp] theorem setCapture_scan (x : Capture) : (s.setCapture x).scan = s.scan := rfl
@[simp] theorem setCapture_requester (x : Capture) : (s.setCapture x).requester = s.requester := rfl
@[simp] theorem setCapture_responder (x : Capture) : (s.setCapture x).responder = s.responder := rfl
@[simp] theorem setCapture_port (x : Capture) : (s.setCapture x).port = s.port := rfl
@[simp] theorem setCapture_resetAsserted (x : Capture) : (s.setCapture x).resetAsserted = s.resetAsserted := rfl
@[simp] theorem setCapture_freeSeq (x : Capture) : (s.setCapture x).freeSeq = s.freeSeq := rfl
@[simp] theorem setCapture_pending (x : Capture) : (s.setCapture x).pending = s.pending := rfl

@[simp] theorem setRing_loader (x : List RingEntry) : (s.setRing x).loader = s.loader := rfl
@[simp] theorem setRing_station (x : List RingEntry) : (s.setRing x).station = s.station := rfl
@[simp] theorem setRing_bus (x : List RingEntry) : (s.setRing x).bus = s.bus := rfl
@[simp] theorem setRing_roundTimer (x : List RingEntry) : (s.setRing x).roundTimer = s.roundTimer := rfl
@[simp] theorem setRing_members (x : List RingEntry) : (s.setRing x).members = s.members := rfl
@[simp] theorem setRing_settle (x : List RingEntry) : (s.setRing x).settle = s.settle := rfl
@[simp] theorem setRing_capture (x : List RingEntry) : (s.setRing x).capture = s.capture := rfl
@[simp] theorem setRing_ring (x : List RingEntry) : (s.setRing x).ring = x := rfl
@[simp] theorem setRing_publishQueue (x : List RingEntry) : (s.setRing x).publishQueue = s.publishQueue := rfl
@[simp] theorem setRing_coverage (x : List RingEntry) : (s.setRing x).coverage = s.coverage := rfl
@[simp] theorem setRing_landing (x : List RingEntry) : (s.setRing x).landing = s.landing := rfl
@[simp] theorem setRing_engine (x : List RingEntry) : (s.setRing x).engine = s.engine := rfl
@[simp] theorem setRing_banks (x : List RingEntry) : (s.setRing x).banks = s.banks := rfl
@[simp] theorem setRing_scan (x : List RingEntry) : (s.setRing x).scan = s.scan := rfl
@[simp] theorem setRing_requester (x : List RingEntry) : (s.setRing x).requester = s.requester := rfl
@[simp] theorem setRing_responder (x : List RingEntry) : (s.setRing x).responder = s.responder := rfl
@[simp] theorem setRing_port (x : List RingEntry) : (s.setRing x).port = s.port := rfl
@[simp] theorem setRing_resetAsserted (x : List RingEntry) : (s.setRing x).resetAsserted = s.resetAsserted := rfl
@[simp] theorem setRing_freeSeq (x : List RingEntry) : (s.setRing x).freeSeq = s.freeSeq := rfl
@[simp] theorem setRing_pending (x : List RingEntry) : (s.setRing x).pending = s.pending := rfl

@[simp] theorem setPublishQueue_loader (x : List Piece) : (s.setPublishQueue x).loader = s.loader := rfl
@[simp] theorem setPublishQueue_station (x : List Piece) : (s.setPublishQueue x).station = s.station := rfl
@[simp] theorem setPublishQueue_bus (x : List Piece) : (s.setPublishQueue x).bus = s.bus := rfl
@[simp] theorem setPublishQueue_roundTimer (x : List Piece) : (s.setPublishQueue x).roundTimer = s.roundTimer := rfl
@[simp] theorem setPublishQueue_members (x : List Piece) : (s.setPublishQueue x).members = s.members := rfl
@[simp] theorem setPublishQueue_settle (x : List Piece) : (s.setPublishQueue x).settle = s.settle := rfl
@[simp] theorem setPublishQueue_capture (x : List Piece) : (s.setPublishQueue x).capture = s.capture := rfl
@[simp] theorem setPublishQueue_ring (x : List Piece) : (s.setPublishQueue x).ring = s.ring := rfl
@[simp] theorem setPublishQueue_publishQueue (x : List Piece) : (s.setPublishQueue x).publishQueue = x := rfl
@[simp] theorem setPublishQueue_coverage (x : List Piece) : (s.setPublishQueue x).coverage = s.coverage := rfl
@[simp] theorem setPublishQueue_landing (x : List Piece) : (s.setPublishQueue x).landing = s.landing := rfl
@[simp] theorem setPublishQueue_engine (x : List Piece) : (s.setPublishQueue x).engine = s.engine := rfl
@[simp] theorem setPublishQueue_banks (x : List Piece) : (s.setPublishQueue x).banks = s.banks := rfl
@[simp] theorem setPublishQueue_scan (x : List Piece) : (s.setPublishQueue x).scan = s.scan := rfl
@[simp] theorem setPublishQueue_requester (x : List Piece) : (s.setPublishQueue x).requester = s.requester := rfl
@[simp] theorem setPublishQueue_responder (x : List Piece) : (s.setPublishQueue x).responder = s.responder := rfl
@[simp] theorem setPublishQueue_port (x : List Piece) : (s.setPublishQueue x).port = s.port := rfl
@[simp] theorem setPublishQueue_resetAsserted (x : List Piece) : (s.setPublishQueue x).resetAsserted = s.resetAsserted := rfl
@[simp] theorem setPublishQueue_freeSeq (x : List Piece) : (s.setPublishQueue x).freeSeq = s.freeSeq := rfl
@[simp] theorem setPublishQueue_pending (x : List Piece) : (s.setPublishQueue x).pending = s.pending := rfl

@[simp] theorem setCoverage_loader (x : Coverage) : (s.setCoverage x).loader = s.loader := rfl
@[simp] theorem setCoverage_station (x : Coverage) : (s.setCoverage x).station = s.station := rfl
@[simp] theorem setCoverage_bus (x : Coverage) : (s.setCoverage x).bus = s.bus := rfl
@[simp] theorem setCoverage_roundTimer (x : Coverage) : (s.setCoverage x).roundTimer = s.roundTimer := rfl
@[simp] theorem setCoverage_members (x : Coverage) : (s.setCoverage x).members = s.members := rfl
@[simp] theorem setCoverage_settle (x : Coverage) : (s.setCoverage x).settle = s.settle := rfl
@[simp] theorem setCoverage_capture (x : Coverage) : (s.setCoverage x).capture = s.capture := rfl
@[simp] theorem setCoverage_ring (x : Coverage) : (s.setCoverage x).ring = s.ring := rfl
@[simp] theorem setCoverage_publishQueue (x : Coverage) : (s.setCoverage x).publishQueue = s.publishQueue := rfl
@[simp] theorem setCoverage_coverage (x : Coverage) : (s.setCoverage x).coverage = x := rfl
@[simp] theorem setCoverage_landing (x : Coverage) : (s.setCoverage x).landing = s.landing := rfl
@[simp] theorem setCoverage_engine (x : Coverage) : (s.setCoverage x).engine = s.engine := rfl
@[simp] theorem setCoverage_banks (x : Coverage) : (s.setCoverage x).banks = s.banks := rfl
@[simp] theorem setCoverage_scan (x : Coverage) : (s.setCoverage x).scan = s.scan := rfl
@[simp] theorem setCoverage_requester (x : Coverage) : (s.setCoverage x).requester = s.requester := rfl
@[simp] theorem setCoverage_responder (x : Coverage) : (s.setCoverage x).responder = s.responder := rfl
@[simp] theorem setCoverage_port (x : Coverage) : (s.setCoverage x).port = s.port := rfl
@[simp] theorem setCoverage_resetAsserted (x : Coverage) : (s.setCoverage x).resetAsserted = s.resetAsserted := rfl
@[simp] theorem setCoverage_freeSeq (x : Coverage) : (s.setCoverage x).freeSeq = s.freeSeq := rfl
@[simp] theorem setCoverage_pending (x : Coverage) : (s.setCoverage x).pending = s.pending := rfl

@[simp] theorem setLanding_loader (x : List Piece) : (s.setLanding x).loader = s.loader := rfl
@[simp] theorem setLanding_station (x : List Piece) : (s.setLanding x).station = s.station := rfl
@[simp] theorem setLanding_bus (x : List Piece) : (s.setLanding x).bus = s.bus := rfl
@[simp] theorem setLanding_roundTimer (x : List Piece) : (s.setLanding x).roundTimer = s.roundTimer := rfl
@[simp] theorem setLanding_members (x : List Piece) : (s.setLanding x).members = s.members := rfl
@[simp] theorem setLanding_settle (x : List Piece) : (s.setLanding x).settle = s.settle := rfl
@[simp] theorem setLanding_capture (x : List Piece) : (s.setLanding x).capture = s.capture := rfl
@[simp] theorem setLanding_ring (x : List Piece) : (s.setLanding x).ring = s.ring := rfl
@[simp] theorem setLanding_publishQueue (x : List Piece) : (s.setLanding x).publishQueue = s.publishQueue := rfl
@[simp] theorem setLanding_coverage (x : List Piece) : (s.setLanding x).coverage = s.coverage := rfl
@[simp] theorem setLanding_landing (x : List Piece) : (s.setLanding x).landing = x := rfl
@[simp] theorem setLanding_engine (x : List Piece) : (s.setLanding x).engine = s.engine := rfl
@[simp] theorem setLanding_banks (x : List Piece) : (s.setLanding x).banks = s.banks := rfl
@[simp] theorem setLanding_scan (x : List Piece) : (s.setLanding x).scan = s.scan := rfl
@[simp] theorem setLanding_requester (x : List Piece) : (s.setLanding x).requester = s.requester := rfl
@[simp] theorem setLanding_responder (x : List Piece) : (s.setLanding x).responder = s.responder := rfl
@[simp] theorem setLanding_port (x : List Piece) : (s.setLanding x).port = s.port := rfl
@[simp] theorem setLanding_resetAsserted (x : List Piece) : (s.setLanding x).resetAsserted = s.resetAsserted := rfl
@[simp] theorem setLanding_freeSeq (x : List Piece) : (s.setLanding x).freeSeq = s.freeSeq := rfl
@[simp] theorem setLanding_pending (x : List Piece) : (s.setLanding x).pending = s.pending := rfl

@[simp] theorem setEngine_loader (x : Engine) : (s.setEngine x).loader = s.loader := rfl
@[simp] theorem setEngine_station (x : Engine) : (s.setEngine x).station = s.station := rfl
@[simp] theorem setEngine_bus (x : Engine) : (s.setEngine x).bus = s.bus := rfl
@[simp] theorem setEngine_roundTimer (x : Engine) : (s.setEngine x).roundTimer = s.roundTimer := rfl
@[simp] theorem setEngine_members (x : Engine) : (s.setEngine x).members = s.members := rfl
@[simp] theorem setEngine_settle (x : Engine) : (s.setEngine x).settle = s.settle := rfl
@[simp] theorem setEngine_capture (x : Engine) : (s.setEngine x).capture = s.capture := rfl
@[simp] theorem setEngine_ring (x : Engine) : (s.setEngine x).ring = s.ring := rfl
@[simp] theorem setEngine_publishQueue (x : Engine) : (s.setEngine x).publishQueue = s.publishQueue := rfl
@[simp] theorem setEngine_coverage (x : Engine) : (s.setEngine x).coverage = s.coverage := rfl
@[simp] theorem setEngine_landing (x : Engine) : (s.setEngine x).landing = s.landing := rfl
@[simp] theorem setEngine_engine (x : Engine) : (s.setEngine x).engine = x := rfl
@[simp] theorem setEngine_banks (x : Engine) : (s.setEngine x).banks = s.banks := rfl
@[simp] theorem setEngine_scan (x : Engine) : (s.setEngine x).scan = s.scan := rfl
@[simp] theorem setEngine_requester (x : Engine) : (s.setEngine x).requester = s.requester := rfl
@[simp] theorem setEngine_responder (x : Engine) : (s.setEngine x).responder = s.responder := rfl
@[simp] theorem setEngine_port (x : Engine) : (s.setEngine x).port = s.port := rfl
@[simp] theorem setEngine_resetAsserted (x : Engine) : (s.setEngine x).resetAsserted = s.resetAsserted := rfl
@[simp] theorem setEngine_freeSeq (x : Engine) : (s.setEngine x).freeSeq = s.freeSeq := rfl
@[simp] theorem setEngine_pending (x : Engine) : (s.setEngine x).pending = s.pending := rfl

@[simp] theorem setBanks_loader (x : BankControl) : (s.setBanks x).loader = s.loader := rfl
@[simp] theorem setBanks_station (x : BankControl) : (s.setBanks x).station = s.station := rfl
@[simp] theorem setBanks_bus (x : BankControl) : (s.setBanks x).bus = s.bus := rfl
@[simp] theorem setBanks_roundTimer (x : BankControl) : (s.setBanks x).roundTimer = s.roundTimer := rfl
@[simp] theorem setBanks_members (x : BankControl) : (s.setBanks x).members = s.members := rfl
@[simp] theorem setBanks_settle (x : BankControl) : (s.setBanks x).settle = s.settle := rfl
@[simp] theorem setBanks_capture (x : BankControl) : (s.setBanks x).capture = s.capture := rfl
@[simp] theorem setBanks_ring (x : BankControl) : (s.setBanks x).ring = s.ring := rfl
@[simp] theorem setBanks_publishQueue (x : BankControl) : (s.setBanks x).publishQueue = s.publishQueue := rfl
@[simp] theorem setBanks_coverage (x : BankControl) : (s.setBanks x).coverage = s.coverage := rfl
@[simp] theorem setBanks_landing (x : BankControl) : (s.setBanks x).landing = s.landing := rfl
@[simp] theorem setBanks_engine (x : BankControl) : (s.setBanks x).engine = s.engine := rfl
@[simp] theorem setBanks_banks (x : BankControl) : (s.setBanks x).banks = x := rfl
@[simp] theorem setBanks_scan (x : BankControl) : (s.setBanks x).scan = s.scan := rfl
@[simp] theorem setBanks_requester (x : BankControl) : (s.setBanks x).requester = s.requester := rfl
@[simp] theorem setBanks_responder (x : BankControl) : (s.setBanks x).responder = s.responder := rfl
@[simp] theorem setBanks_port (x : BankControl) : (s.setBanks x).port = s.port := rfl
@[simp] theorem setBanks_resetAsserted (x : BankControl) : (s.setBanks x).resetAsserted = s.resetAsserted := rfl
@[simp] theorem setBanks_freeSeq (x : BankControl) : (s.setBanks x).freeSeq = s.freeSeq := rfl
@[simp] theorem setBanks_pending (x : BankControl) : (s.setBanks x).pending = s.pending := rfl

@[simp] theorem setScan_loader (x : PanelScan) : (s.setScan x).loader = s.loader := rfl
@[simp] theorem setScan_station (x : PanelScan) : (s.setScan x).station = s.station := rfl
@[simp] theorem setScan_bus (x : PanelScan) : (s.setScan x).bus = s.bus := rfl
@[simp] theorem setScan_roundTimer (x : PanelScan) : (s.setScan x).roundTimer = s.roundTimer := rfl
@[simp] theorem setScan_members (x : PanelScan) : (s.setScan x).members = s.members := rfl
@[simp] theorem setScan_settle (x : PanelScan) : (s.setScan x).settle = s.settle := rfl
@[simp] theorem setScan_capture (x : PanelScan) : (s.setScan x).capture = s.capture := rfl
@[simp] theorem setScan_ring (x : PanelScan) : (s.setScan x).ring = s.ring := rfl
@[simp] theorem setScan_publishQueue (x : PanelScan) : (s.setScan x).publishQueue = s.publishQueue := rfl
@[simp] theorem setScan_coverage (x : PanelScan) : (s.setScan x).coverage = s.coverage := rfl
@[simp] theorem setScan_landing (x : PanelScan) : (s.setScan x).landing = s.landing := rfl
@[simp] theorem setScan_engine (x : PanelScan) : (s.setScan x).engine = s.engine := rfl
@[simp] theorem setScan_banks (x : PanelScan) : (s.setScan x).banks = s.banks := rfl
@[simp] theorem setScan_scan (x : PanelScan) : (s.setScan x).scan = x := rfl
@[simp] theorem setScan_requester (x : PanelScan) : (s.setScan x).requester = s.requester := rfl
@[simp] theorem setScan_responder (x : PanelScan) : (s.setScan x).responder = s.responder := rfl
@[simp] theorem setScan_port (x : PanelScan) : (s.setScan x).port = s.port := rfl
@[simp] theorem setScan_resetAsserted (x : PanelScan) : (s.setScan x).resetAsserted = s.resetAsserted := rfl
@[simp] theorem setScan_freeSeq (x : PanelScan) : (s.setScan x).freeSeq = s.freeSeq := rfl
@[simp] theorem setScan_pending (x : PanelScan) : (s.setScan x).pending = s.pending := rfl

@[simp] theorem setRequester_loader (x : Requester) : (s.setRequester x).loader = s.loader := rfl
@[simp] theorem setRequester_station (x : Requester) : (s.setRequester x).station = s.station := rfl
@[simp] theorem setRequester_bus (x : Requester) : (s.setRequester x).bus = s.bus := rfl
@[simp] theorem setRequester_roundTimer (x : Requester) : (s.setRequester x).roundTimer = s.roundTimer := rfl
@[simp] theorem setRequester_members (x : Requester) : (s.setRequester x).members = s.members := rfl
@[simp] theorem setRequester_settle (x : Requester) : (s.setRequester x).settle = s.settle := rfl
@[simp] theorem setRequester_capture (x : Requester) : (s.setRequester x).capture = s.capture := rfl
@[simp] theorem setRequester_ring (x : Requester) : (s.setRequester x).ring = s.ring := rfl
@[simp] theorem setRequester_publishQueue (x : Requester) : (s.setRequester x).publishQueue = s.publishQueue := rfl
@[simp] theorem setRequester_coverage (x : Requester) : (s.setRequester x).coverage = s.coverage := rfl
@[simp] theorem setRequester_landing (x : Requester) : (s.setRequester x).landing = s.landing := rfl
@[simp] theorem setRequester_engine (x : Requester) : (s.setRequester x).engine = s.engine := rfl
@[simp] theorem setRequester_banks (x : Requester) : (s.setRequester x).banks = s.banks := rfl
@[simp] theorem setRequester_scan (x : Requester) : (s.setRequester x).scan = s.scan := rfl
@[simp] theorem setRequester_requester (x : Requester) : (s.setRequester x).requester = x := rfl
@[simp] theorem setRequester_responder (x : Requester) : (s.setRequester x).responder = s.responder := rfl
@[simp] theorem setRequester_port (x : Requester) : (s.setRequester x).port = s.port := rfl
@[simp] theorem setRequester_resetAsserted (x : Requester) : (s.setRequester x).resetAsserted = s.resetAsserted := rfl
@[simp] theorem setRequester_freeSeq (x : Requester) : (s.setRequester x).freeSeq = s.freeSeq := rfl
@[simp] theorem setRequester_pending (x : Requester) : (s.setRequester x).pending = s.pending := rfl

@[simp] theorem setResponder_loader (x : Responder) : (s.setResponder x).loader = s.loader := rfl
@[simp] theorem setResponder_station (x : Responder) : (s.setResponder x).station = s.station := rfl
@[simp] theorem setResponder_bus (x : Responder) : (s.setResponder x).bus = s.bus := rfl
@[simp] theorem setResponder_roundTimer (x : Responder) : (s.setResponder x).roundTimer = s.roundTimer := rfl
@[simp] theorem setResponder_members (x : Responder) : (s.setResponder x).members = s.members := rfl
@[simp] theorem setResponder_settle (x : Responder) : (s.setResponder x).settle = s.settle := rfl
@[simp] theorem setResponder_capture (x : Responder) : (s.setResponder x).capture = s.capture := rfl
@[simp] theorem setResponder_ring (x : Responder) : (s.setResponder x).ring = s.ring := rfl
@[simp] theorem setResponder_publishQueue (x : Responder) : (s.setResponder x).publishQueue = s.publishQueue := rfl
@[simp] theorem setResponder_coverage (x : Responder) : (s.setResponder x).coverage = s.coverage := rfl
@[simp] theorem setResponder_landing (x : Responder) : (s.setResponder x).landing = s.landing := rfl
@[simp] theorem setResponder_engine (x : Responder) : (s.setResponder x).engine = s.engine := rfl
@[simp] theorem setResponder_banks (x : Responder) : (s.setResponder x).banks = s.banks := rfl
@[simp] theorem setResponder_scan (x : Responder) : (s.setResponder x).scan = s.scan := rfl
@[simp] theorem setResponder_requester (x : Responder) : (s.setResponder x).requester = s.requester := rfl
@[simp] theorem setResponder_responder (x : Responder) : (s.setResponder x).responder = x := rfl
@[simp] theorem setResponder_port (x : Responder) : (s.setResponder x).port = s.port := rfl
@[simp] theorem setResponder_resetAsserted (x : Responder) : (s.setResponder x).resetAsserted = s.resetAsserted := rfl
@[simp] theorem setResponder_freeSeq (x : Responder) : (s.setResponder x).freeSeq = s.freeSeq := rfl
@[simp] theorem setResponder_pending (x : Responder) : (s.setResponder x).pending = s.pending := rfl

@[simp] theorem setPort_loader (x : StatusPort) : (s.setPort x).loader = s.loader := rfl
@[simp] theorem setPort_station (x : StatusPort) : (s.setPort x).station = s.station := rfl
@[simp] theorem setPort_bus (x : StatusPort) : (s.setPort x).bus = s.bus := rfl
@[simp] theorem setPort_roundTimer (x : StatusPort) : (s.setPort x).roundTimer = s.roundTimer := rfl
@[simp] theorem setPort_members (x : StatusPort) : (s.setPort x).members = s.members := rfl
@[simp] theorem setPort_settle (x : StatusPort) : (s.setPort x).settle = s.settle := rfl
@[simp] theorem setPort_capture (x : StatusPort) : (s.setPort x).capture = s.capture := rfl
@[simp] theorem setPort_ring (x : StatusPort) : (s.setPort x).ring = s.ring := rfl
@[simp] theorem setPort_publishQueue (x : StatusPort) : (s.setPort x).publishQueue = s.publishQueue := rfl
@[simp] theorem setPort_coverage (x : StatusPort) : (s.setPort x).coverage = s.coverage := rfl
@[simp] theorem setPort_landing (x : StatusPort) : (s.setPort x).landing = s.landing := rfl
@[simp] theorem setPort_engine (x : StatusPort) : (s.setPort x).engine = s.engine := rfl
@[simp] theorem setPort_banks (x : StatusPort) : (s.setPort x).banks = s.banks := rfl
@[simp] theorem setPort_scan (x : StatusPort) : (s.setPort x).scan = s.scan := rfl
@[simp] theorem setPort_requester (x : StatusPort) : (s.setPort x).requester = s.requester := rfl
@[simp] theorem setPort_responder (x : StatusPort) : (s.setPort x).responder = s.responder := rfl
@[simp] theorem setPort_port (x : StatusPort) : (s.setPort x).port = x := rfl
@[simp] theorem setPort_resetAsserted (x : StatusPort) : (s.setPort x).resetAsserted = s.resetAsserted := rfl
@[simp] theorem setPort_freeSeq (x : StatusPort) : (s.setPort x).freeSeq = s.freeSeq := rfl
@[simp] theorem setPort_pending (x : StatusPort) : (s.setPort x).pending = s.pending := rfl

@[simp] theorem setResetAsserted_loader (x : Bool) : (s.setResetAsserted x).loader = s.loader := rfl
@[simp] theorem setResetAsserted_station (x : Bool) : (s.setResetAsserted x).station = s.station := rfl
@[simp] theorem setResetAsserted_bus (x : Bool) : (s.setResetAsserted x).bus = s.bus := rfl
@[simp] theorem setResetAsserted_roundTimer (x : Bool) : (s.setResetAsserted x).roundTimer = s.roundTimer := rfl
@[simp] theorem setResetAsserted_members (x : Bool) : (s.setResetAsserted x).members = s.members := rfl
@[simp] theorem setResetAsserted_settle (x : Bool) : (s.setResetAsserted x).settle = s.settle := rfl
@[simp] theorem setResetAsserted_capture (x : Bool) : (s.setResetAsserted x).capture = s.capture := rfl
@[simp] theorem setResetAsserted_ring (x : Bool) : (s.setResetAsserted x).ring = s.ring := rfl
@[simp] theorem setResetAsserted_publishQueue (x : Bool) : (s.setResetAsserted x).publishQueue = s.publishQueue := rfl
@[simp] theorem setResetAsserted_coverage (x : Bool) : (s.setResetAsserted x).coverage = s.coverage := rfl
@[simp] theorem setResetAsserted_landing (x : Bool) : (s.setResetAsserted x).landing = s.landing := rfl
@[simp] theorem setResetAsserted_engine (x : Bool) : (s.setResetAsserted x).engine = s.engine := rfl
@[simp] theorem setResetAsserted_banks (x : Bool) : (s.setResetAsserted x).banks = s.banks := rfl
@[simp] theorem setResetAsserted_scan (x : Bool) : (s.setResetAsserted x).scan = s.scan := rfl
@[simp] theorem setResetAsserted_requester (x : Bool) : (s.setResetAsserted x).requester = s.requester := rfl
@[simp] theorem setResetAsserted_responder (x : Bool) : (s.setResetAsserted x).responder = s.responder := rfl
@[simp] theorem setResetAsserted_port (x : Bool) : (s.setResetAsserted x).port = s.port := rfl
@[simp] theorem setResetAsserted_resetAsserted (x : Bool) : (s.setResetAsserted x).resetAsserted = x := rfl
@[simp] theorem setResetAsserted_freeSeq (x : Bool) : (s.setResetAsserted x).freeSeq = s.freeSeq := rfl
@[simp] theorem setResetAsserted_pending (x : Bool) : (s.setResetAsserted x).pending = s.pending := rfl

@[simp] theorem setFreeSeq_loader (x : Nat) : (s.setFreeSeq x).loader = s.loader := rfl
@[simp] theorem setFreeSeq_station (x : Nat) : (s.setFreeSeq x).station = s.station := rfl
@[simp] theorem setFreeSeq_bus (x : Nat) : (s.setFreeSeq x).bus = s.bus := rfl
@[simp] theorem setFreeSeq_roundTimer (x : Nat) : (s.setFreeSeq x).roundTimer = s.roundTimer := rfl
@[simp] theorem setFreeSeq_members (x : Nat) : (s.setFreeSeq x).members = s.members := rfl
@[simp] theorem setFreeSeq_settle (x : Nat) : (s.setFreeSeq x).settle = s.settle := rfl
@[simp] theorem setFreeSeq_capture (x : Nat) : (s.setFreeSeq x).capture = s.capture := rfl
@[simp] theorem setFreeSeq_ring (x : Nat) : (s.setFreeSeq x).ring = s.ring := rfl
@[simp] theorem setFreeSeq_publishQueue (x : Nat) : (s.setFreeSeq x).publishQueue = s.publishQueue := rfl
@[simp] theorem setFreeSeq_coverage (x : Nat) : (s.setFreeSeq x).coverage = s.coverage := rfl
@[simp] theorem setFreeSeq_landing (x : Nat) : (s.setFreeSeq x).landing = s.landing := rfl
@[simp] theorem setFreeSeq_engine (x : Nat) : (s.setFreeSeq x).engine = s.engine := rfl
@[simp] theorem setFreeSeq_banks (x : Nat) : (s.setFreeSeq x).banks = s.banks := rfl
@[simp] theorem setFreeSeq_scan (x : Nat) : (s.setFreeSeq x).scan = s.scan := rfl
@[simp] theorem setFreeSeq_requester (x : Nat) : (s.setFreeSeq x).requester = s.requester := rfl
@[simp] theorem setFreeSeq_responder (x : Nat) : (s.setFreeSeq x).responder = s.responder := rfl
@[simp] theorem setFreeSeq_port (x : Nat) : (s.setFreeSeq x).port = s.port := rfl
@[simp] theorem setFreeSeq_resetAsserted (x : Nat) : (s.setFreeSeq x).resetAsserted = s.resetAsserted := rfl
@[simp] theorem setFreeSeq_freeSeq (x : Nat) : (s.setFreeSeq x).freeSeq = x := rfl
@[simp] theorem setFreeSeq_pending (x : Nat) : (s.setFreeSeq x).pending = s.pending := rfl

@[simp] theorem setPending_loader (x : List Instr) : (s.setPending x).loader = s.loader := rfl
@[simp] theorem setPending_station (x : List Instr) : (s.setPending x).station = s.station := rfl
@[simp] theorem setPending_bus (x : List Instr) : (s.setPending x).bus = s.bus := rfl
@[simp] theorem setPending_roundTimer (x : List Instr) : (s.setPending x).roundTimer = s.roundTimer := rfl
@[simp] theorem setPending_members (x : List Instr) : (s.setPending x).members = s.members := rfl
@[simp] theorem setPending_settle (x : List Instr) : (s.setPending x).settle = s.settle := rfl
@[simp] theorem setPending_capture (x : List Instr) : (s.setPending x).capture = s.capture := rfl
@[simp] theorem setPending_ring (x : List Instr) : (s.setPending x).ring = s.ring := rfl
@[simp] theorem setPending_publishQueue (x : List Instr) : (s.setPending x).publishQueue = s.publishQueue := rfl
@[simp] theorem setPending_coverage (x : List Instr) : (s.setPending x).coverage = s.coverage := rfl
@[simp] theorem setPending_landing (x : List Instr) : (s.setPending x).landing = s.landing := rfl
@[simp] theorem setPending_engine (x : List Instr) : (s.setPending x).engine = s.engine := rfl
@[simp] theorem setPending_banks (x : List Instr) : (s.setPending x).banks = s.banks := rfl
@[simp] theorem setPending_scan (x : List Instr) : (s.setPending x).scan = s.scan := rfl
@[simp] theorem setPending_requester (x : List Instr) : (s.setPending x).requester = s.requester := rfl
@[simp] theorem setPending_responder (x : List Instr) : (s.setPending x).responder = s.responder := rfl
@[simp] theorem setPending_port (x : List Instr) : (s.setPending x).port = s.port := rfl
@[simp] theorem setPending_resetAsserted (x : List Instr) : (s.setPending x).resetAsserted = s.resetAsserted := rfl
@[simp] theorem setPending_freeSeq (x : List Instr) : (s.setPending x).freeSeq = s.freeSeq := rfl
@[simp] theorem setPending_pending (x : List Instr) : (s.setPending x).pending = x := rfl

@[simp] theorem setLoader_setLoader (x y : Loader) : (s.setLoader x).setLoader y = s.setLoader y := rfl
@[simp] theorem setStation_setStation (x y : Station) : (s.setStation x).setStation y = s.setStation y := rfl
@[simp] theorem setBus_setBus (x y : Bus) : (s.setBus x).setBus y = s.setBus y := rfl
@[simp] theorem setRoundTimer_setRoundTimer (x y : RoundTimer) : (s.setRoundTimer x).setRoundTimer y = s.setRoundTimer y := rfl
@[simp] theorem setMembers_setMembers (x y : List MemberEntry) : (s.setMembers x).setMembers y = s.setMembers y := rfl
@[simp] theorem setSettle_setSettle (x y : Settle) : (s.setSettle x).setSettle y = s.setSettle y := rfl
@[simp] theorem setCapture_setCapture (x y : Capture) : (s.setCapture x).setCapture y = s.setCapture y := rfl
@[simp] theorem setRing_setRing (x y : List RingEntry) : (s.setRing x).setRing y = s.setRing y := rfl
@[simp] theorem setPublishQueue_setPublishQueue (x y : List Piece) : (s.setPublishQueue x).setPublishQueue y = s.setPublishQueue y := rfl
@[simp] theorem setCoverage_setCoverage (x y : Coverage) : (s.setCoverage x).setCoverage y = s.setCoverage y := rfl
@[simp] theorem setLanding_setLanding (x y : List Piece) : (s.setLanding x).setLanding y = s.setLanding y := rfl
@[simp] theorem setEngine_setEngine (x y : Engine) : (s.setEngine x).setEngine y = s.setEngine y := rfl
@[simp] theorem setBanks_setBanks (x y : BankControl) : (s.setBanks x).setBanks y = s.setBanks y := rfl
@[simp] theorem setScan_setScan (x y : PanelScan) : (s.setScan x).setScan y = s.setScan y := rfl
@[simp] theorem setRequester_setRequester (x y : Requester) : (s.setRequester x).setRequester y = s.setRequester y := rfl
@[simp] theorem setResponder_setResponder (x y : Responder) : (s.setResponder x).setResponder y = s.setResponder y := rfl
@[simp] theorem setPort_setPort (x y : StatusPort) : (s.setPort x).setPort y = s.setPort y := rfl
@[simp] theorem setResetAsserted_setResetAsserted (x y : Bool) : (s.setResetAsserted x).setResetAsserted y = s.setResetAsserted y := rfl
@[simp] theorem setFreeSeq_setFreeSeq (x y : Nat) : (s.setFreeSeq x).setFreeSeq y = s.setFreeSeq y := rfl
@[simp] theorem setPending_setPending (x y : List Instr) : (s.setPending x).setPending y = s.setPending y := rfl

end Sys2Proof.Machine.State
end

