-- ==== Sys2Proof/Laws/Writes.lean ====
section
/-! SUPPORT. What each shared operation can write: one lemma per operation, by the fields of the state it may change. -/

namespace Sys2Proof.Machine

namespace OnlyWrites

variable {fs gs : List Field} {s t u : State}

theorem refl : OnlyWrites fs s s := by
  intro f _; cases f <;> rfl

theorem followedBy (h : OnlyWrites fs s t) (g : OnlyWrites gs t u) (w : ∀ f ∈ gs, f ∈ fs) : OnlyWrites fs s u := by
  intro f hf
  have a := h f hf
  have b := g f (fun hg => hf (w f hg))
  cases f <;> exact Eq.trans b a

theorem widen (h : OnlyWrites gs s t) (w : ∀ f ∈ gs, f ∈ fs) : OnlyWrites fs s t := fun f hf => h f (fun hg => hf (w f hg))

/-- A field outside the list keeps its value: `h.keeps .bus (by decide) : t.bus = s.bus`. -/
theorem keeps (h : OnlyWrites fs s t) (f : Field) (hf : f ∉ fs) : f.same s t := h f hf

end OnlyWrites

theorem setLoader_writes (s : State) (x : Loader) : OnlyWrites [.loader] s (s.setLoader x) := by
  intro f hf; cases f <;> first | rfl | exact absurd (List.mem_singleton.mpr rfl) hf

theorem setStation_writes (s : State) (x : Station) : OnlyWrites [.station] s (s.setStation x) := by
  intro f hf; cases f <;> first | rfl | exact absurd (List.mem_singleton.mpr rfl) hf

theorem setBus_writes (s : State) (x : Bus) : OnlyWrites [.bus] s (s.setBus x) := by
  intro f hf; cases f <;> first | rfl | exact absurd (List.mem_singleton.mpr rfl) hf

theorem setRoundTimer_writes (s : State) (x : RoundTimer) : OnlyWrites [.roundTimer] s (s.setRoundTimer x) := by
  intro f hf; cases f <;> first | rfl | exact absurd (List.mem_singleton.mpr rfl) hf

theorem setMembers_writes (s : State) (x : List MemberEntry) : OnlyWrites [.members] s (s.setMembers x) := by
  intro f hf; cases f <;> first | rfl | exact absurd (List.mem_singleton.mpr rfl) hf

theorem setSettle_writes (s : State) (x : Settle) : OnlyWrites [.settle] s (s.setSettle x) := by
  intro f hf; cases f <;> first | rfl | exact absurd (List.mem_singleton.mpr rfl) hf

theorem setCapture_writes (s : State) (x : Capture) : OnlyWrites [.capture] s (s.setCapture x) := by
  intro f hf; cases f <;> first | rfl | exact absurd (List.mem_singleton.mpr rfl) hf

theorem setRing_writes (s : State) (x : List RingEntry) : OnlyWrites [.ring] s (s.setRing x) := by
  intro f hf; cases f <;> first | rfl | exact absurd (List.mem_singleton.mpr rfl) hf

theorem setPublishQueue_writes (s : State) (x : List Piece) : OnlyWrites [.publishQueue] s (s.setPublishQueue x) := by
  intro f hf; cases f <;> first | rfl | exact absurd (List.mem_singleton.mpr rfl) hf

theorem setCoverage_writes (s : State) (x : Coverage) : OnlyWrites [.coverage] s (s.setCoverage x) := by
  intro f hf; cases f <;> first | rfl | exact absurd (List.mem_singleton.mpr rfl) hf

theorem setLanding_writes (s : State) (x : List Piece) : OnlyWrites [.landing] s (s.setLanding x) := by
  intro f hf; cases f <;> first | rfl | exact absurd (List.mem_singleton.mpr rfl) hf

theorem setEngine_writes (s : State) (x : Engine) : OnlyWrites [.engine] s (s.setEngine x) := by
  intro f hf; cases f <;> first | rfl | exact absurd (List.mem_singleton.mpr rfl) hf

theorem setBanks_writes (s : State) (x : BankControl) : OnlyWrites [.banks] s (s.setBanks x) := by
  intro f hf; cases f <;> first | rfl | exact absurd (List.mem_singleton.mpr rfl) hf

theorem setScan_writes (s : State) (x : PanelScan) : OnlyWrites [.scan] s (s.setScan x) := by
  intro f hf; cases f <;> first | rfl | exact absurd (List.mem_singleton.mpr rfl) hf

theorem setRequester_writes (s : State) (x : Requester) : OnlyWrites [.requester] s (s.setRequester x) := by
  intro f hf; cases f <;> first | rfl | exact absurd (List.mem_singleton.mpr rfl) hf

theorem setResponder_writes (s : State) (x : Responder) : OnlyWrites [.responder] s (s.setResponder x) := by
  intro f hf; cases f <;> first | rfl | exact absurd (List.mem_singleton.mpr rfl) hf

theorem setPort_writes (s : State) (x : StatusPort) : OnlyWrites [.port] s (s.setPort x) := by
  intro f hf; cases f <;> first | rfl | exact absurd (List.mem_singleton.mpr rfl) hf

theorem setResetAsserted_writes (s : State) (x : Bool) : OnlyWrites [.resetAsserted] s (s.setResetAsserted x) := by
  intro f hf; cases f <;> first | rfl | exact absurd (List.mem_singleton.mpr rfl) hf

theorem setFreeSeq_writes (s : State) (x : Nat) : OnlyWrites [.freeSeq] s (s.setFreeSeq x) := by
  intro f hf; cases f <;> first | rfl | exact absurd (List.mem_singleton.mpr rfl) hf

theorem setPending_writes (s : State) (x : List Instr) : OnlyWrites [.pending] s (s.setPending x) := by
  intro f hf; cases f <;> first | rfl | exact absurd (List.mem_singleton.mpr rfl) hf

/-! ## Status port, free values -/

theorem raise_writes (c : Counter) (n : Nat) (s : State) : OnlyWrites [.port] s (raise c n s) := by
  exact setPort_writes _ _

theorem post_writes (k : EventKind) (f : Frame) (d : Byte) (s : State) : OnlyWrites [.port] s (post k f d s) := by
  unfold post
  split <;> exact setPort_writes _ _

theorem drawFree_writes (s : State) : OnlyWrites [.freeSeq] s (drawFree s) := by
  exact setFreeSeq_writes _ _

theorem setMember_writes (k : Nat) (e : MemberEntry) (s : State) : OnlyWrites [.members] s (s.setMember k e) := by
  exact setMembers_writes _ _

theorem openCoverage_writes (f : Frame) (s : State) : OnlyWrites [.coverage] s (openCoverage f s) := by
  exact setCoverage_writes _ _

theorem recomputeEligibility_writes (w : Bool) (s : State) : OnlyWrites [.members] s (recomputeEligibility w s) := by
  exact setMembers_writes _ _

/-! ## Repair requester -/

theorem setEntries_writes (l : List RepairEntry) (s : State) : OnlyWrites [.requester] s (setEntries l s) := by
  exact setRequester_writes _ _

theorem changeEntry_writes (t : Nat) (f : RepairEntry → RepairEntry) (s : State) : OnlyWrites [.requester] s (changeEntry t f s) := by
  exact setRequester_writes _ _

theorem composeFor_writes (s : State) (k : Nat) : OnlyWrites [.requester] s (composeFor s k) := by
  unfold composeFor
  split
  · exact setRequester_writes _ _
  · exact .refl

theorem foldl_writes {α : Type} {fs : List Field} (g : State → α → State) (h : ∀ s a, OnlyWrites fs s (g s a)) (l : List α) :
    ∀ s, OnlyWrites fs s (l.foldl g s) := by
  induction l with
  | nil => exact fun _ => .refl
  | cons a l ih => exact fun s => (h s a).followedBy (ih _) (fun _ hf => hf)

theorem gapScan_writes (s : State) : OnlyWrites [.requester] s (gapScan s) := by
  exact foldl_writes _ composeFor_writes _ _

theorem markPublished_writes (k : Nat) (s : State) : OnlyWrites [.requester] s (markPublished k s) := by
  unfold markPublished
  refine .followedBy ?_ (gapScan_writes _) (by decide)
  refine .followedBy ?_ (setRequester_writes _ _) (by decide)
  exact .refl

theorem postFailure_writes (c : ConditionCode) (e : RepairEntry) (s : State) : OnlyWrites [.port] s (postFailure c e s) := by
  unfold postFailure
  split
  · exact post_writes _ _ _ _
  · exact .refl

theorem closeEntry_writes (c : ConditionCode) (e : RepairEntry) (s : State) : OnlyWrites [.requester, .port] s (closeEntry c e s) := by
  unfold closeEntry
  refine .followedBy ?_ (gapScan_writes _) (by decide)
  refine .followedBy ?_ (setEntries_writes _ _) (by decide)
  refine .followedBy ?_ (postFailure_writes _ _ _) (by decide)
  split
  · exact (setRequester_writes _ _).widen (by decide)
  · exact .refl

theorem overtakeEntries_writes (s : State) : OnlyWrites [.requester] s (overtakeEntries s) := by
  exact setRequester_writes _ _

theorem requestPassed_writes (t : Nat) (s : State) : OnlyWrites [.requester, .port] s (requestPassed t s) := by
  unfold requestPassed
  refine .followedBy ?_ (raise_writes _ _ _) (by decide)
  refine .followedBy ?_ (changeEntry_writes _ _ _) (by decide)
  exact .refl

theorem takeClaim_writes (k row : Nat) (s : State) : OnlyWrites [.requester, .port] s (takeClaim k row s) := by
  unfold takeClaim
  split
  · exact .refl
  · split
    · split
      · exact closeEntry_writes _ _ _
      · exact closeEntry_writes _ _ _
      · exact .refl
    · exact .refl

theorem takeRepairMark_writes (m : RepairMark) (s : State) : OnlyWrites [.requester] s (takeRepairMark m s) := by
  unfold takeRepairMark
  split
  · exact changeEntry_writes _ _ _
  · exact .refl

theorem takeRefusal_writes (e : RepairEntry) (s : State) : OnlyWrites [.requester, .port] s (takeRefusal e s) := by
  unfold takeRefusal
  split
  · split
    · exact (changeEntry_writes _ _ _).widen (by decide)
    · exact closeEntry_writes _ _ _
  · exact .refl

theorem takeStatus_writes (k : Nat) (m : StatusFields) (s : State) : OnlyWrites [.requester, .port] s (takeStatus k m s) := by
  unfold takeStatus
  split
  · exact .refl
  · split
    · exact (raise_writes _ _ _).widen (by decide)
    · split
      · exact closeEntry_writes _ _ _
      · exact closeEntry_writes _ _ _
      · exact closeEntry_writes _ _ _
      · exact closeEntry_writes _ _ _
      · exact takeRefusal_writes _ _

theorem requesterTakeState_writes (k : Nat) (m : StateFields) (s : State) : OnlyWrites [.requester] s (requesterTakeState k m s) := by
  unfold requesterTakeState
  split
  · split
    · exact markPublished_writes _ _
    · exact .refl
  · exact .refl

theorem ageEntry_writes (e : RepairEntry) (s : State) : OnlyWrites [.requester, .port] s (ageEntry e s) := by
  unfold ageEntry
  split
  · exact .refl
  split
  · split <;> exact (changeEntry_writes _ _ _).widen (by decide)
  split
  · split
    · exact (changeEntry_writes _ _ _).widen (by decide)
    · exact closeEntry_writes _ _ _
  · exact (changeEntry_writes _ _ _).widen (by decide)

theorem requesterRoundStart_writes (s : State) : OnlyWrites [.requester, .port] s (requesterRoundStart s) := by
  exact foldl_writes _ (fun s e => ageEntry_writes e s) _ _

/-! ## Capture unit, retain ring, publish queue -/

theorem setCaptureState_writes (c : CaptureState) (s : State) : OnlyWrites [.capture] s (setCaptureState c s) := by
  exact setCapture_writes _ _

theorem ownPublished_writes (s : State) : OnlyWrites [.requester] s (ownPublished s) := by
  unfold ownPublished
  split
  · exact markPublished_writes _ _
  · exact gapScan_writes _

theorem checkPublished_writes (s : State) : OnlyWrites [.capture, .requester] s (checkPublished s) := by
  unfold checkPublished
  split
  · dsimp only
    split
    · exact .followedBy ((setCapture_writes _ _).widen (by decide)) (ownPublished_writes _) (by decide)
    · exact (setCapture_writes _ _).widen (by decide)
  · exact .refl

theorem offerRow_writes (l : List Piece) (s : State) : OnlyWrites [.publishQueue, .port] s (offerRow l s) := by
  unfold offerRow
  split
  · exact (setPublishQueue_writes _ _).widen (by decide)
  · exact (raise_writes _ _ _).widen (by decide)

theorem advanceRow_writes (s : State) : OnlyWrites [.capture] s (advanceRow s) := by
  exact setCapture_writes _ _

theorem produceRow_writes (l : List Piece) (s : State) : OnlyWrites [.capture, .ring, .publishQueue, .port] s (produceRow l s) := by
  unfold produceRow
  refine .followedBy ?_ (advanceRow_writes _) (by decide)
  refine .followedBy ?_ (offerRow_writes _ _) (by decide)
  exact (setRing_writes _ _).widen (by decide)

theorem produceFillRow_writes (s : State) : OnlyWrites [.capture, .ring, .publishQueue, .port] s (produceFillRow s) := by
  unfold produceFillRow
  exact .followedBy (produceRow_writes _ _) (raise_writes _ _ _) (by decide)

theorem produceFillRows_writes (n : Nat) : ∀ s, OnlyWrites [.capture, .ring, .publishQueue, .port] s (produceFillRows n s) := by
  induction n with
  | zero => exact fun _ => .refl
  | succ n ih => exact fun s => (produceFillRow_writes s).followedBy (ih _) (fun _ hf => hf)

theorem endCaptureWithFill_writes (s : State) : OnlyWrites [.capture, .ring, .publishQueue, .port] s (endCaptureWithFill s) := by
  unfold endCaptureWithFill
  exact .followedBy (produceFillRows_writes _ _) (setCaptureState_writes _ _) (by decide)

theorem postShapeFault_writes (d : Byte) (s : State) : OnlyWrites [.capture, .port] s (postShapeFault d s) := by
  unfold postShapeFault
  split
  · exact .refl
  · exact .followedBy ((post_writes _ _ _ _).widen (by decide)) (setCapture_writes _ _) (by decide)

theorem inputFrameStart_writes (s : State) : OnlyWrites [.capture, .port] s (inputFrameStart s) := by
  unfold inputFrameStart
  split
  · exact .followedBy ((setCapture_writes _ _).widen (by decide)) (post_writes _ _ _ _) (by decide)
  · exact (setCapture_writes _ _).widen (by decide)

theorem skipInputFrame_writes (s : State) : OnlyWrites [.capture, .port] s (skipInputFrame s) := by
  unfold skipInputFrame
  exact .followedBy ((setCapture_writes _ _).widen (by decide)) (raise_writes _ _ _) (by decide)

theorem captureFrameStart_writes (s : State) : OnlyWrites [.capture, .ring, .publishQueue, .port, .requester] s (captureFrameStart s) := by
  unfold captureFrameStart
  split
  · exact (setCapture_writes _ _).widen (by decide)
  · refine .followedBy ?_ (checkPublished_writes _) (by decide)
    refine .followedBy ?_ (skipInputFrame_writes _) (by decide)
    refine .followedBy ?_ (endCaptureWithFill_writes _) (by decide)
    exact (postShapeFault_writes _ _).widen (by decide)
  · exact (skipInputFrame_writes _).widen (by decide)
  · exact (skipInputFrame_writes _).widen (by decide)

theorem newInputFrame_writes (s : State) : OnlyWrites [.capture] s (newInputFrame s) := by
  exact setCapture_writes _ _

theorem takeFrameStart_writes (s : State) : OnlyWrites [.capture, .ring, .publishQueue, .port, .requester] s (takeFrameStart s) := by
  unfold takeFrameStart
  split
  · split
    · exact .refl
    · refine .followedBy ?_ (newInputFrame_writes _) (by decide)
      exact (inputFrameStart_writes _).widen (by decide)
    · refine .followedBy ?_ (newInputFrame_writes _) (by decide)
      refine .followedBy ?_ (captureFrameStart_writes _) (by decide)
      exact (inputFrameStart_writes _).widen (by decide)
    · refine .followedBy ?_ (newInputFrame_writes _) (by decide)
      exact (setCapture_writes _ _).widen (by decide)
  · exact .refl

theorem captureRow_writes (l : List Pixel) (s : State) : OnlyWrites [.capture, .ring, .publishQueue, .port, .requester] s (captureRow l s) := by
  unfold captureRow
  refine .followedBy ?_ (checkPublished_writes _) (by decide)
  refine .followedBy ?_ (produceRow_writes _ _) (by decide)
  split
  · exact (postShapeFault_writes _ _).widen (by decide)
  · split
    · exact (postShapeFault_writes _ _).widen (by decide)
    · exact .refl

theorem memberRow_writes (l : List Pixel) (s : State) : OnlyWrites [.capture, .ring, .publishQueue, .port, .requester] s (memberRow l s) := by
  unfold memberRow
  have h : OnlyWrites [.capture, .ring, .publishQueue, .port, .requester] s
      (if s.capture.state = .capturing then s.setCapture { s.capture with silence := 0 } else s) := by
    split
    · exact (setCapture_writes _ _).widen (by decide)
    · exact .refl
  revert h
  generalize (if s.capture.state = .capturing then s.setCapture { s.capture with silence := 0 } else s) = t
  intro h
  dsimp only
  split
  · exact h
  · split
    · exact h.followedBy (captureRow_writes _ _) (by decide)
    · exact h.followedBy (postShapeFault_writes _ _) (by decide)
    · exact h
    · exact h

theorem takeRow_writes (l : List Pixel) (s : State) : OnlyWrites [.capture, .ring, .publishQueue, .port, .requester] s (takeRow l s) := by
  unfold takeRow
  split
  · exact memberRow_writes _ _
  · exact .refl

theorem loseInput_writes (s : State) : OnlyWrites [.capture, .ring, .publishQueue, .port, .requester] s (loseInput s) := by
  unfold loseInput
  dsimp only
  split
  · refine .followedBy ?_ (checkPublished_writes _) (by decide)
    refine .followedBy ?_ (post_writes _ _ _ _) (by decide)
    refine .followedBy ?_ (setCapture_writes _ _) (by decide)
    refine .followedBy ?_ (endCaptureWithFill_writes _) (by decide)
    exact (setCapture_writes _ _).widen (by decide)
  · refine .followedBy ?_ (post_writes _ _ _ _) (by decide)
    exact (setCapture_writes _ _).widen (by decide)

theorem captureRoundStart_writes (s : State) : OnlyWrites [.capture, .ring, .publishQueue, .port, .requester] s (captureRoundStart s) := by
  unfold captureRoundStart
  dsimp only
  split
  · split
    · refine .followedBy ?_ (loseInput_writes _) (by decide)
      exact (setCapture_writes _ _).widen (by decide)
    · exact (setCapture_writes _ _).widen (by decide)
  · exact .refl

theorem cutCapture_writes (s : State) : OnlyWrites [.capture] s (cutCapture s) := by
  unfold cutCapture
  split
  · exact setCapture_writes _ _
  · exact .refl

theorem lockOffer_writes (s : State) : OnlyWrites [.capture, .ring, .publishQueue] s (lockOffer s) := by
  unfold lockOffer
  split
  · refine .followedBy ?_ (setCapture_writes _ _) (by decide)
    refine .followedBy ?_ (setPublishQueue_writes _ _) (by decide)
    refine .followedBy ?_ (setRing_writes _ _) (by decide)
    exact (cutCapture_writes _).widen (by decide)
  · exact .refl

theorem isolateCapture_writes (s : State) : OnlyWrites [.capture, .ring, .publishQueue] s (isolateCapture s) := by
  unfold isolateCapture
  refine .followedBy ?_ (setCapture_writes _ _) (by decide)
  refine .followedBy ?_ (setPublishQueue_writes _ _) (by decide)
  refine .followedBy ?_ (setRing_writes _ _) (by decide)
  exact (cutCapture_writes _).widen (by decide)

theorem freshPassed_writes (s : State) : OnlyWrites [.capture, .publishQueue, .requester] s (freshPassed s) := by
  unfold freshPassed
  refine .followedBy ?_ (checkPublished_writes _) (by decide)
  exact (setPublishQueue_writes _ _).widen (by decide)

/-! ## Placement, bank control, panel scan -/

theorem setBackBank_writes (b : Bank) (s : State) : OnlyWrites [.banks] s (setBackBank b s) := by
  exact setBanks_writes _ _

theorem setClear_writes (c : ClearState) (s : State) : OnlyWrites [.banks] s (setClear c s) := by
  exact setBanks_writes _ _

theorem tryPlace_writes (s : State) : OnlyWrites [.engine] s (tryPlace s) := by
  unfold tryPlace
  split
  · exact setEngine_writes _ _
  · exact .refl

theorem completePlacement_writes (s : State) : OnlyWrites [.banks, .landing, .engine] s (completePlacement s) := by
  unfold completePlacement
  split
  · refine .followedBy ?_ (tryPlace_writes _) (by decide)
    refine .followedBy ?_ (setEngine_writes _ _) (by decide)
    refine .followedBy ?_ (setLanding_writes _ _) (by decide)
    exact (setBackBank_writes _ _).widen (by decide)
  · exact .refl

theorem stopPlacement_writes (s : State) : OnlyWrites [.banks, .engine, .freeSeq] s (stopPlacement s) := by
  unfold stopPlacement
  split
  · refine .followedBy ?_ (drawFree_writes _) (by decide)
    refine .followedBy ?_ (setEngine_writes _ _) (by decide)
    exact (setBackBank_writes _ _).widen (by decide)
  · exact (setEngine_writes _ _).widen (by decide)

theorem discardLanding_writes (s : State) : OnlyWrites [.landing, .banks, .engine, .freeSeq] s (discardLanding s) := by
  exact .followedBy ((stopPlacement_writes _).widen (by decide)) (setLanding_writes _ _) (by decide)

theorem stopClear_writes (s : State) : OnlyWrites [.banks, .freeSeq] s (stopClear s) := by
  unfold stopClear
  split
  · refine .followedBy ?_ (drawFree_writes _) (by decide)
    refine .followedBy ?_ (setClear_writes _ _) (by decide)
    exact (setBackBank_writes _ _).widen (by decide)
  · exact .refl
  · exact .refl

theorem reopenBack_writes (s : State) : OnlyWrites [.banks, .freeSeq, .coverage] s (reopenBack s) := by
  unfold reopenBack
  have h : OnlyWrites [.banks, .freeSeq, .coverage] s
      ((stopClear s).setBanks
        { (stopClear s).banks with backFrame := some (stopClear s).openFrame, clear := .clearingBack }) :=
    .followedBy ((stopClear_writes _).widen (by decide)) (setBanks_writes _ _) (by decide)
  dsimp only
  split
  · exact h
  · exact h.followedBy (openCoverage_writes _ _) (by decide)

theorem openBackAtJoin_writes (s : State) : OnlyWrites [.banks, .coverage] s (openBackAtJoin s) := by
  exact .followedBy ((setBanks_writes _ _).widen (by decide)) (openCoverage_writes _ _) (by decide)

theorem straggle_writes (f : Frame) (d : Byte) (s : State) : OnlyWrites [.port] s (straggle f d s) := by
  exact .followedBy (post_writes _ _ _ _) (raise_writes _ _ _) (by decide)

theorem noticeAtOnce_writes (a : Action) (f : Frame) (c : Bool) (s : State) : OnlyWrites [.banks, .freeSeq, .coverage, .port] s (noticeAtOnce a f c s) := by
  unfold noticeAtOnce
  split
  · split
    · exact .followedBy ((setBanks_writes _ _).widen (by decide)) (openCoverage_writes _ _) (by decide)
    · exact .followedBy ((straggle_writes _ _ _).widen (by decide)) (reopenBack_writes _) (by decide)
  · exact (reopenBack_writes _).widen (by decide)
  · exact (reopenBack_writes _).widen (by decide)
  · exact (openBackAtJoin_writes _).widen (by decide)

theorem noticeBehindSwap_writes (a : Action) (f : Frame) (s : State) : OnlyWrites [.coverage, .port] s (noticeBehindSwap a f s) := by
  unfold noticeBehindSwap
  refine .followedBy ?_ (openCoverage_writes _ _) (by decide)
  split
  · exact (straggle_writes _ _ _).widen (by decide)
  · exact .refl
  · exact .refl
  · exact .refl

theorem bankNotice_writes (a : Action) (f : Frame) (c : Bool) (s : State) : OnlyWrites [.banks, .freeSeq, .coverage, .port] s (bankNotice a f c s) := by
  unfold bankNotice
  split
  · exact noticeAtOnce_writes _ _ _ _
  · exact (noticeBehindSwap_writes _ _ _).widen (by decide)

theorem isolateBanks_writes (s : State) : OnlyWrites [.banks, .freeSeq] s (isolateBanks s) := by
  exact .followedBy (stopClear_writes _) (setBanks_writes _ _) (by decide)

theorem completeSwap_writes (s : State) : OnlyWrites [.banks, .freeSeq, .coverage, .port] s (completeSwap s) := by
  unfold completeSwap
  split
  · exact .refl
  · refine .followedBy ?_ (reopenBack_writes _) (by decide)
    refine .followedBy ?_ (raise_writes _ _ _) (by decide)
    exact (setBanks_writes _ _).widen (by decide)

theorem scanStart_writes (s : State) : OnlyWrites [.banks, .freeSeq, .coverage, .port, .scan] s (scanStart s) := by
  exact .followedBy ((completeSwap_writes _).widen (by decide)) (setScan_writes _ _) (by decide)

theorem scanOn_writes (s : State) : OnlyWrites [.scan] s (scanOn s) := by
  unfold scanOn
  split
  · exact .refl
  · split
    · exact setScan_writes _ _
    · exact .refl

theorem endStartUpClear_writes (s : State) : OnlyWrites [.banks, .freeSeq, .coverage, .port, .scan] s (endStartUpClear s) := by
  unfold endStartUpClear
  refine .followedBy ?_ (setScan_writes _ _) (by decide)
  refine .followedBy ?_ (scanStart_writes _) (by decide)
  exact (setBanks_writes _ _).widen (by decide)

theorem endBankClear_writes (s : State) : OnlyWrites [.banks, .engine] s (endBankClear s) := by
  unfold endBankClear
  split
  · refine .followedBy ?_ (tryPlace_writes _) (by decide)
    refine .followedBy ?_ (setClear_writes _ _) (by decide)
    exact (setBackBank_writes _ _).widen (by decide)
  · exact .refl
  · exact .refl

/-! ## Repair responder -/

theorem offerReply_writes (m : StatusFields) (s : State) : OnlyWrites [.responder, .port] s (offerReply m s) := by
  unfold offerReply
  split
  · exact (setResponder_writes _ _).widen (by decide)
  · exact (raise_writes _ _ _).widen (by decide)

theorem afterWalk_writes (r : QueuedRequest) (rest : List QueuedRequest) (next : State → State)
    (h : ∀ s, OnlyWrites [.responder, .port] s (next s)) (s : State) (w : WalkEnd) :
    OnlyWrites [.responder, .port] s (afterWalk r rest next s w) := by
  unfold afterWalk
  split
  · exact (setResponder_writes _ _).widen (by decide)
  · exact (offerReply_writes _ _).followedBy (h _) (by decide)

theorem serve_writes (l : List QueuedRequest) : ∀ s, OnlyWrites [.responder, .port] s (serve l s) := by
  induction l with
  | nil => exact fun s => (setResponder_writes _ _).widen (by decide)
  | cons r rest ih => exact fun s => afterWalk_writes r rest _ ih s _

theorem slotPassed_writes (s : State) : OnlyWrites [.responder, .port] s (slotPassed s) := by
  unfold slotPassed
  split
  · refine .followedBy ?_ (afterWalk_writes _ _ _ (serve_writes _) _ _) (by decide)
    refine .followedBy ?_ (setResponder_writes _ _) (by decide)
    exact (raise_writes _ _ _).widen (by decide)
  · exact .refl

theorem statusPassed_writes (s : State) : OnlyWrites [.responder] s (statusPassed s) := by
  exact setResponder_writes _ _

theorem acceptRequest_writes (k : Nat) (q : RequestFields) (s : State) : OnlyWrites [.responder, .port] s (acceptRequest k q s) := by
  unfold acceptRequest
  dsimp only
  split
  · exact serve_writes _ _
  · exact (setResponder_writes _ _).widen (by decide)

theorem testRequest_writes (k : Nat) (q : RequestFields) (s : State) : OnlyWrites [.responder, .port] s (testRequest k q s) := by
  unfold testRequest
  split
  · exact (raise_writes _ _ _).widen (by decide)
  split
  · exact offerReply_writes _ _
  split
  · exact offerReply_writes _ _
  split
  · exact .refl
  split
  · exact .followedBy (offerReply_writes _ _) (raise_writes _ _ _) (by decide)
  · exact acceptRequest_writes _ _ _

theorem takeRequest_writes (k : Nat) (q : RequestFields) (s : State) : OnlyWrites [.responder, .port] s (takeRequest k q s) := by
  unfold takeRequest
  split
  · exact testRequest_writes _ _ _
  · exact .refl

theorem purgeResponder_writes (s : State) : OnlyWrites [.responder] s (purgeResponder s) := by
  exact setResponder_writes _ _

/-! ## Membership table -/

theorem takeMatching_writes (k : Nat) (m : StateFields) (s : State) : OnlyWrites [.members, .port] s (takeMatching k m s) := by
  unfold takeMatching
  dsimp only
  split
  · exact (setMember_writes _ _ _).widen (by decide)
  · exact .followedBy ((setMember_writes _ _ _).widen (by decide)) (post_writes _ _ _ _) (by decide)

theorem takeDiffering_writes (k : Nat) (m : StateFields) (s : State) : OnlyWrites [.members, .port] s (takeDiffering k m s) := by
  unfold takeDiffering
  dsimp only
  split
  · exact (setMember_writes _ _ _).widen (by decide)
  · exact .followedBy ((setMember_writes _ _ _).widen (by decide)) (post_writes _ _ _ _) (by decide)

theorem tableTakeState_writes (k : Nat) (m : StateFields) (s : State) : OnlyWrites [.members, .port] s (tableTakeState k m s) := by
  unfold tableTakeState
  split
  · exact (setMember_writes _ _ _).widen (by decide)
  split
  · exact takeMatching_writes _ _ _
  · exact takeDiffering_writes _ _ _

theorem ageMember_writes (s : State) (k : Nat) : OnlyWrites [.members, .port] s (ageMember s k) := by
  unfold ageMember
  dsimp only
  split
  · exact .followedBy ((setMember_writes _ _ _).widen (by decide)) (post_writes _ _ _ _) (by decide)
  · exact (setMember_writes _ _ _).widen (by decide)

theorem tableRoundStart_writes (s : State) : OnlyWrites [.members, .port] s (tableRoundStart s) := by
  exact foldl_writes _ ageMember_writes _ _

theorem forgetMember_writes (s : State) (k : Nat) : OnlyWrites [.members, .port] s (forgetMember s k) := by
  unfold forgetMember
  dsimp only
  split
  · exact .followedBy ((setMember_writes _ _ _).widen (by decide)) (post_writes _ _ _ _) (by decide)
  · exact .refl

theorem forgetMembers_writes (s : State) : OnlyWrites [.members, .port] s (forgetMembers s) := by
  exact foldl_writes _ forgetMember_writes _ _

/-! ## Reception -/

theorem claim_writes (p : Piece) (s : State) : OnlyWrites [.coverage, .landing, .engine, .requester, .port] s (claim p s) := by
  unfold claim
  refine .followedBy ?_ (tryPlace_writes _) (by decide)
  refine .followedBy ?_ (takeClaim_writes _ _ _) (by decide)
  refine .followedBy ?_ (raise_writes _ _ _) (by decide)
  refine .followedBy ?_ (setLanding_writes _ _) (by decide)
  exact (setCoverage_writes _ _).widen (by decide)

theorem filterSegment_writes (p : Piece) (s : State) : OnlyWrites [.coverage, .landing, .engine, .requester, .port] s (filterSegment p s) := by
  unfold filterSegment
  split
  · exact .refl
  · exact .refl
  · exact (raise_writes _ _ _).widen (by decide)
  · exact (raise_writes _ _ _).widen (by decide)
  · exact (raise_writes _ _ _).widen (by decide)
  · exact (raise_writes _ _ _).widen (by decide)
  · exact claim_writes _ _

theorem takeSegment_writes (m : SegmentFields) (s : State) : OnlyWrites [.coverage, .landing, .engine, .requester, .port] s (takeSegment m s) := by
  unfold takeSegment
  split
  · dsimp only
    refine .followedBy ?_ (filterSegment_writes _ _) (by decide)
    split
    · exact (takeRepairMark_writes _ _).widen (by decide)
    · exact .refl
  · exact .refl

/-! ## Settle unit -/

theorem sinkNotice_writes (a : Action) (f : Frame) (c : Bool) (s : State) : OnlyWrites [.coverage, .landing, .engine, .banks, .freeSeq, .requester, .port] s (sinkNotice a f c s) := by
  unfold sinkNotice
  split
  · refine .followedBy ?_ (overtakeEntries_writes _) (by decide)
    refine .followedBy ?_ (bankNotice_writes _ _ _ _) (by decide)
    exact (discardLanding_writes _).widen (by decide)
  · exact .refl

theorem sourceNotice_writes (s : State) : OnlyWrites [.capture, .ring, .publishQueue, .responder] s (sourceNotice s) := by
  unfold sourceNotice
  split
  · exact .followedBy ((lockOffer_writes _).widen (by decide)) (purgeResponder_writes _) (by decide)
  · exact .refl

theorem notice_writes (a : Action) (f : Frame) (c w : Bool) (s : State) : OnlyWrites [.members, .capture, .ring, .publishQueue, .responder, .coverage, .landing, .engine, .banks, .freeSeq, .requester, .port] s (notice a f c w s) := by
  unfold notice
  refine .followedBy ?_ (sinkNotice_writes _ _ _ _) (by decide)
  refine .followedBy ?_ (sourceNotice_writes _) (by decide)
  exact (recomputeEligibility_writes _ _).widen (by decide)

theorem advance_writes (f : Frame) (k : SettleKind) (s : State) : OnlyWrites [.settle] s (advance f k s) := by
  exact setSettle_writes _ _

theorem settleCommit_writes (s : State) : OnlyWrites [.settle, .members, .capture, .ring, .publishQueue, .responder, .coverage, .landing, .engine, .banks, .freeSeq, .requester, .port] s (settleCommit s) := by
  unfold settleCommit
  refine .followedBy ?_ (notice_writes _ _ _ _ _) (by decide)
  refine .followedBy ?_ (raise_writes _ _ _) (by decide)
  exact (advance_writes _ _ _).widen (by decide)

theorem settleAbandon_writes (p : SettlePath) (s : State) : OnlyWrites [.settle, .members, .capture, .ring, .publishQueue, .responder, .coverage, .landing, .engine, .banks, .freeSeq, .requester, .port] s (settleAbandon p s) := by
  unfold settleAbandon
  refine .followedBy ?_ (notice_writes _ _ _ _ _) (by decide)
  refine .followedBy ?_ (post_writes _ _ _ _) (by decide)
  refine .followedBy ?_ (raise_writes _ _ _) (by decide)
  exact (advance_writes _ _ _).widen (by decide)

theorem resync_writes (f : Frame) (k : SettleKind) (s : State) : OnlyWrites [.settle, .members, .capture, .ring, .publishQueue, .responder, .coverage, .landing, .engine, .banks, .freeSeq, .requester, .port] s (resync f k s) := by
  unfold resync
  refine .followedBy ?_ (notice_writes _ _ _ _ _) (by decide)
  refine .followedBy ?_ (post_writes _ _ _ _) (by decide)
  refine .followedBy ?_ (raise_writes _ _ _) (by decide)
  exact (advance_writes _ _ _).widen (by decide)

theorem takeAhead_writes (p : SettlePath) (f : Frame) (k : SettleKind) (o : FrameOrder) (s : State) : OnlyWrites [.settle, .members, .capture, .ring, .publishQueue, .responder, .coverage, .landing, .engine, .banks, .freeSeq, .requester, .port] s (takeAhead p f k o s) := by
  unfold takeAhead
  split
  · exact settleCommit_writes _
  · exact settleAbandon_writes _ _
  · exact resync_writes _ _ _
  · exact resync_writes _ _ _
  · exact .refl
  · exact .refl

theorem takeMark_writes (k : Nat) (m : MarkFields) (s : State) : OnlyWrites [.settle, .members, .capture, .ring, .publishQueue, .responder, .coverage, .landing, .engine, .banks, .freeSeq, .requester, .port] s (takeMark k m s) := by
  unfold takeMark
  split
  · exact .refl
  · exact (post_writes _ _ _ _).widen (by decide)
  · exact takeAhead_writes _ _ _ _ _
  · exact takeAhead_writes _ _ _ _ _

theorem takeOwnMark_writes (m : MarkFields) (v : Bool) (s : State) : OnlyWrites [.settle, .members, .capture, .ring, .publishQueue, .responder, .coverage, .landing, .engine, .banks, .freeSeq, .requester, .port] s (takeOwnMark m v s) := by
  unfold takeOwnMark
  split
  · split
    · exact settleCommit_writes _
    · exact settleAbandon_writes _ _
    · exact .refl
  · exact .refl

theorem recordMark_writes (c : RoundContent) (s : State) : OnlyWrites [.settle] s (recordMark c s) := by
  unfold recordMark
  split
  · exact .refl
  · exact setSettle_writes _ _
  · exact .refl

theorem settleRoundStart_writes (c : RoundContent) (s : State) : OnlyWrites [.settle, .members, .capture, .ring, .publishQueue, .responder, .coverage, .landing, .engine, .banks, .freeSeq, .requester, .port] s (settleRoundStart c s) := by
  unfold settleRoundStart
  split
  · have h : OnlyWrites [.settle, .members, .capture, .ring, .publishQueue, .responder, .coverage, .landing, .engine, .banks, .freeSeq, .requester, .port] s (raiseOpenAge s) := (setSettle_writes _ _).widen (by decide)
    unfold takeContent
    split
    · exact h
    · exact h.followedBy (takeMark_writes _ _ _) (by decide)
    · exact h.followedBy (takeOwnMark_writes _ _ _) (by decide)
  · exact (recordMark_writes _ _).widen (by decide)

theorem numberRoundStart_writes (c : RoundContent) (s : State) : OnlyWrites [.roundTimer] s (numberRoundStart c s) := by
  exact setRoundTimer_writes _ _

theorem arrive_writes (c : RoundContent) (s : State) (a : RoundArrival) : OnlyWrites [.roundTimer, .settle, .members, .capture, .ring, .publishQueue, .responder, .coverage, .landing, .engine, .banks, .freeSeq, .requester, .port] s (arrive c s a) := by
  unfold arrive
  split
  · exact (numberRoundStart_writes _ _).widen (by decide)
  · exact (tableRoundStart_writes _).widen (by decide)
  · exact (captureRoundStart_writes _).widen (by decide)
  · split
    · exact (requesterRoundStart_writes _).widen (by decide)
    · exact .refl
  · exact (settleRoundStart_writes _ _).widen (by decide)

theorem settleTakeState_writes (k : Nat) (m : StateFields) (s : State) : OnlyWrites [.settle, .members, .capture, .ring, .publishQueue, .responder, .coverage, .landing, .engine, .banks, .freeSeq, .requester, .port] s (settleTakeState k m s) := by
  unfold settleTakeState
  split
  · exact takeAhead_writes _ _ _ _ _
  · exact .refl

/-! ## Station state logic -/

theorem restartMarkTimer_writes (s : State) : OnlyWrites [.roundTimer] s (restartMarkTimer s) := by
  exact setRoundTimer_writes _ _

theorem enterListen_writes (s : State) : OnlyWrites [.station, .members, .bus, .settle, .roundTimer] s (enterListen s) := by
  unfold enterListen
  refine .followedBy ?_ (restartMarkTimer_writes _) (by decide)
  refine .followedBy ?_ (setSettle_writes _ _) (by decide)
  refine .followedBy ?_ (setBus_writes _ _) (by decide)
  refine .followedBy ?_ (setMember_writes _ _ _) (by decide)
  exact (setStation_writes _ _).widen (by decide)

theorem isolateBus_writes (s : State) : OnlyWrites [.bus, .roundTimer] s (isolateBus s) := by
  exact .followedBy ((setBus_writes _ _).widen (by decide)) (setRoundTimer_writes _ _) (by decide)

theorem isolate_writes (c : FaultCode) (s : State) : OnlyWrites [.station, .bus, .roundTimer, .capture, .ring, .publishQueue, .responder, .landing, .engine, .banks, .freeSeq, .requester, .port] s (isolate c s) := by
  unfold isolate
  refine .followedBy ?_ (overtakeEntries_writes _) (by decide)
  refine .followedBy ?_ (isolateBanks_writes _) (by decide)
  refine .followedBy ?_ (discardLanding_writes _) (by decide)
  refine .followedBy ?_ (purgeResponder_writes _) (by decide)
  refine .followedBy ?_ (isolateCapture_writes _) (by decide)
  refine .followedBy ?_ (isolateBus_writes _) (by decide)
  refine .followedBy ?_ (post_writes _ _ _ _) (by decide)
  exact (setStation_writes _ _).widen (by decide)

theorem enterMember_writes (f : Frame) (k : SettleKind) (d : Byte) (s : State) : OnlyWrites [.station, .settle, .members, .capture, .ring, .publishQueue, .responder, .coverage, .landing, .engine, .banks, .freeSeq, .requester, .port] s (enterMember f k d s) := by
  unfold enterMember
  refine .followedBy ?_ (notice_writes _ _ _ _ _) (by decide)
  refine .followedBy ?_ (post_writes _ _ _ _) (by decide)
  refine .followedBy ?_ (setSettle_writes _ _) (by decide)
  exact (setStation_writes _ _).widen (by decide)

theorem joinByCount_writes (s : State) : OnlyWrites [.station, .settle, .members, .capture, .ring, .publishQueue, .responder, .coverage, .landing, .engine, .banks, .freeSeq, .requester, .port] s (joinByCount s) := by
  exact enterMember_writes _ _ _ _

theorem joinAlone_writes (s : State) : OnlyWrites [.bus, .roundTimer, .station, .settle, .members, .capture, .ring, .publishQueue, .responder, .coverage, .landing, .engine, .banks, .freeSeq, .requester, .port] s (joinAlone s) := by
  unfold joinAlone
  refine .followedBy ?_ (enterMember_writes _ _ _ _) (by decide)
  refine .followedBy ?_ (forgetMembers_writes _) (by decide)
  refine .followedBy ?_ (setBus_writes _ _) (by decide)
  exact (setRoundTimer_writes _ _).widen (by decide)

theorem countJoin_writes (s : State) : OnlyWrites [.station, .settle, .members, .capture, .ring, .publishQueue, .responder, .coverage, .landing, .engine, .banks, .freeSeq, .requester, .port] s (countJoin s) := by
  unfold countJoin
  dsimp only
  split
  · exact .followedBy ((setStation_writes _ _).widen (by decide)) (joinByCount_writes _) (by decide)
  · exact (setStation_writes _ _).widen (by decide)

theorem roundStart_writes (c : RoundContent) (o : Orders) (s : State) : OnlyWrites [.station, .roundTimer, .settle, .members, .capture, .ring, .publishQueue, .responder, .coverage, .landing, .engine, .banks, .freeSeq, .requester, .port] s (roundStart c o s) := by
  unfold roundStart
  have h : OnlyWrites [.station, .roundTimer, .settle, .members, .capture, .ring, .publishQueue, .responder, .coverage, .landing, .engine, .banks, .freeSeq, .requester, .port] s ((roundOrder o).foldl (arrive c) (restartMarkTimer s)) :=
    .followedBy ((restartMarkTimer_writes _).widen (by decide)) (foldl_writes _ (arrive_writes c) _ _) (by decide)
  dsimp only
  split
  · exact h.followedBy (countJoin_writes _) (by decide)
  · exact h

end Sys2Proof.Machine
end

