-- ==== Sys2Proof/Laws/BusWrites.lean ====
section
/-! SUPPORT. What each operation of the bus interface can write, and what each command can write. -/

namespace Sys2Proof.Machine

theorem hearStart_writes (s : State) : OnlyWrites [.bus] s (hearStart s) := by
  unfold hearStart
  split <;> exact setBus_writes _ _

theorem takeBurstStart_writes (s : State) : OnlyWrites [.station, .bus] s (takeBurstStart s) := by
  unfold takeBurstStart
  split
  · exact .refl
  · exact .refl
  · dsimp only
    split
    · exact .followedBy ((setStation_writes _ _).widen (by decide)) (hearStart_writes _) (by decide)
    · exact .followedBy ((setStation_writes _ _).widen (by decide)) (setBus_writes _ _) (by decide)
  · split
    · exact .refl
    · exact (hearStart_writes _).widen (by decide)

theorem send_writes (i : SentItem) (c : Bool) (b : Body) (s : State) : OnlyWrites [.bus] s (send i c b s) := by
  unfold send
  exact .followedBy (hearStart_writes _) (setBus_writes _ _) (by decide)

theorem sendStream_writes (s : State) : OnlyWrites [.bus] s (sendStream s) := by
  unfold sendStream
  split
  · exact send_writes _ _ _ _
  · exact send_writes _ _ _ _
  · exact .refl

theorem sendOpen_writes (s : State) : OnlyWrites [.bus] s (sendOpen s) := by
  unfold sendOpen
  split
  · exact send_writes _ _ _ _
  · exact send_writes _ _ _ _
  · exact send_writes _ _ _ _
  · exact .refl

theorem beginPosition_writes (s : State) : OnlyWrites [.bus] s (beginPosition s) := by
  unfold beginPosition
  split
  · exact .refl
  · exact .refl
  · split
    · split
      · exact send_writes _ _ _ _
      · exact .refl
    · split
      · split
        · split
          · exact sendStream_writes _
          · exact .refl
        · exact .refl
      · exact sendOpen_writes _

theorem sendMark_writes (s : State) : OnlyWrites [.bus] s (sendMark s) := by
  exact .followedBy (send_writes _ _ _ _) (setBus_writes _ _) (by decide)

theorem countFault_writes (i : SentItem) (s : State) : OnlyWrites [.bus, .port] s (countFault i s) := by
  exact .followedBy ((raise_writes _ _ _).widen (by decide)) (setBus_writes _ _) (by decide)

theorem takeFault_writes (i : SentItem) (s : State) : OnlyWrites [.station, .bus, .roundTimer, .capture, .ring, .publishQueue, .responder, .landing, .engine, .banks, .freeSeq, .requester, .port] s (takeFault i s) := by
  unfold takeFault
  dsimp only
  split
  · exact .followedBy ((countFault_writes _ _).widen (by decide)) (isolate_writes _ _) (by decide)
  · split
    · exact .followedBy ((countFault_writes _ _).widen (by decide)) (isolate_writes _ _) (by decide)
    · exact (countFault_writes _ _).widen (by decide)

theorem settleReadback_writes (r : Option (SentItem × Readback)) (s : State) : OnlyWrites [.station, .bus, .roundTimer, .capture, .ring, .publishQueue, .responder, .landing, .engine, .banks, .freeSeq, .requester, .port] s (settleReadback r s) := by
  unfold settleReadback
  have h : OnlyWrites [.station, .bus, .roundTimer, .capture, .ring, .publishQueue, .responder, .landing, .engine, .banks, .freeSeq, .requester, .port] s (s.setBus { s.bus with hearing := none, driving := none }) :=
    (setBus_writes _ _).widen (by decide)
  dsimp only
  split
  · exact h
  · exact h.followedBy (setBus_writes _ _) (by decide)
  · exact h.followedBy (setBus_writes _ _) (by decide)
  · exact h.followedBy (takeFault_writes _ _) (by decide)

theorem reportPassed_writes (p : Option SentItem) (s : State) : OnlyWrites [.capture, .publishQueue, .requester, .responder, .port] s (reportPassed p s) := by
  unfold reportPassed
  split
  · exact .refl
  · exact .refl
  · exact .refl
  · exact (freshPassed_writes _).widen (by decide)
  · exact (slotPassed_writes _).widen (by decide)
  · exact (requestPassed_writes _ _).widen (by decide)
  · exact (statusPassed_writes _).widen (by decide)

theorem countJudgment_writes (j : Judgment) (s : State) : OnlyWrites [.port] s (countJudgment j s) := by
  unfold countJudgment
  split
  · exact raise_writes _ _ _
  · exact raise_writes _ _ _
  · exact raise_writes _ _ _
  · exact .refl

theorem stateArrive_writes (k : Nat) (m : StateFields) (s : State) (a : StateArrival) : OnlyWrites [.settle, .members, .capture, .ring, .publishQueue, .responder, .coverage, .landing, .engine, .banks, .freeSeq, .requester, .port] s (stateArrive k m s a) := by
  unfold stateArrive
  split
  · exact (tableTakeState_writes _ _ _).widen (by decide)
  · exact settleTakeState_writes _ _ _
  · exact (requesterTakeState_writes _ _ _).widen (by decide)

theorem deliverListening_writes (b : Burst) (s : State) : OnlyWrites [.settle, .members, .station, .bus, .roundTimer, .capture, .ring, .publishQueue, .responder, .landing, .engine, .banks, .freeSeq, .requester, .port] s (deliverListening b s) := by
  unfold deliverListening
  split
  · split
    · exact (isolate_writes _ _).widen (by decide)
    · exact (tableTakeState_writes _ _ _).widen (by decide)
  · exact (recordMark_writes _ _).widen (by decide)
  all_goals exact .refl

theorem deliverMember_writes (b : Burst) (o : Orders) (s : State) : OnlyWrites [.settle, .members, .capture, .ring, .publishQueue, .responder, .coverage, .landing, .engine, .banks, .freeSeq, .requester, .port] s (deliverMember b o s) := by
  unfold deliverMember
  split
  · exact .refl
  · exact foldl_writes _ (stateArrive_writes _ _) _ _
  · exact (takeSegment_writes _ _).widen (by decide)
  · exact (takeRequest_writes _ _ _).widen (by decide)
  · split
    · exact (takeStatus_writes _ _ _).widen (by decide)
    · exact .refl

theorem deliver_writes (j : Judgment) (o : Orders) (s : State) : OnlyWrites [.station, .bus, .roundTimer, .members, .settle, .capture, .ring, .publishQueue, .coverage, .landing, .engine, .banks, .requester, .responder, .port, .freeSeq] s (deliver j o s) := by
  unfold deliver
  split
  · split
    · exact (deliverMember_writes _ _ _).widen (by decide)
    · exact (deliverListening_writes _ _).widen (by decide)
  all_goals exact .refl

theorem reportAndDeliver_writes (p : Option SentItem) (j : Judgment) (o : Orders) (s : State) : OnlyWrites [.station, .bus, .roundTimer, .members, .settle, .capture, .ring, .publishQueue, .coverage, .landing, .engine, .banks, .requester, .responder, .port, .freeSeq] s (reportAndDeliver p j o s) := by
  unfold reportAndDeliver
  split
  · exact .followedBy ((reportPassed_writes _ _).widen (by decide)) (deliver_writes _ _ _) (by decide)
  · exact .followedBy (deliver_writes _ _ _) (reportPassed_writes _ _) (by decide)

theorem concludeBurst_writes (h : Hearing) (p : Option SentItem) (j : Judgment) (o : Orders) (s : State) : OnlyWrites [.station, .bus, .roundTimer, .members, .settle, .capture, .ring, .publishQueue, .coverage, .landing, .engine, .banks, .requester, .responder, .port, .freeSeq] s (concludeBurst h p j o s) := by
  unfold concludeBurst
  dsimp only
  split
  · exact .followedBy ((countJudgment_writes _ _).widen (by decide)) (roundStart_writes _ _ _) (by decide)
  · exact .followedBy ((countJudgment_writes _ _).widen (by decide)) (reportAndDeliver_writes _ _ _ _) (by decide)

theorem endBurst_writes (h : Hearing) (c : Bool) (l : List Byte) (o : Orders) (s : State) : OnlyWrites [.station, .bus, .roundTimer, .members, .settle, .capture, .ring, .publishQueue, .coverage, .landing, .engine, .banks, .requester, .responder, .port, .freeSeq] s (endBurst h c l o s) := by
  unfold endBurst
  dsimp only
  split
  · exact (settleReadback_writes _ _).widen (by decide)
  · exact .followedBy ((settleReadback_writes _ _).widen (by decide)) (concludeBurst_writes _ _ _ _ _) (by decide)

theorem endCandidate_writes (l : List Byte) (o : Orders) (s : State) : OnlyWrites [.station, .bus, .roundTimer, .members, .settle, .capture, .ring, .publishQueue, .coverage, .landing, .engine, .banks, .requester, .responder, .port, .freeSeq] s (endCandidate l o s) := by
  unfold endCandidate
  dsimp only
  split
  · exact (setBus_writes _ _).widen (by decide)
  · refine .followedBy ?_ (roundStart_writes _ _ _) (by decide)
    exact .followedBy ((setBus_writes _ _).widen (by decide)) (setBus_writes _ _) (by decide)

theorem takeBurst_writes (l : List Byte) (o : Orders) (s : State) : OnlyWrites [.station, .bus, .roundTimer, .members, .settle, .capture, .ring, .publishQueue, .coverage, .landing, .engine, .banks, .requester, .responder, .port, .freeSeq] s (takeBurst l o s) := by
  unfold takeBurst
  split
  · exact .refl
  · split
    · exact endBurst_writes _ _ _ _ _
    · split
      · exact endCandidate_writes _ _ _
      · exact .refl

theorem cutBurst_writes (l : List Byte) (o : Orders) (s : State) : OnlyWrites [.station, .bus, .roundTimer, .members, .settle, .capture, .ring, .publishQueue, .coverage, .landing, .engine, .banks, .requester, .responder, .port, .freeSeq] s (cutBurst l o s) := by
  unfold cutBurst
  split
  · exact endBurst_writes _ _ _ _ _
  · exact .refl

theorem advancePosition_writes (s : State) : OnlyWrites [.bus] s (advancePosition s) := by
  unfold advancePosition
  dsimp only
  split
  · exact .followedBy (setBus_writes _ _) (beginPosition_writes _) (by decide)
  · exact setBus_writes _ _

theorem takePositionEnd_writes (l : List Byte) (o : Orders) (s : State) : OnlyWrites [.station, .bus, .roundTimer, .members, .settle, .capture, .ring, .publishQueue, .coverage, .landing, .engine, .banks, .requester, .responder, .port, .freeSeq] s (takePositionEnd l o s) := by
  unfold takePositionEnd
  split
  · unfold endPosition
    split
    · exact .refl
    · dsimp only
      split
      · exact cutBurst_writes _ _ _
      · exact .followedBy (cutBurst_writes _ _ _) (advancePosition_writes _) (by decide)
  · split
    · exact (setBus_writes _ _).widen (by decide)
    · exact .refl

theorem expireListening_writes (s : State) : OnlyWrites [.bus, .roundTimer, .station, .settle, .members, .capture, .ring, .publishQueue, .responder, .coverage, .landing, .engine, .banks, .freeSeq, .requester, .port] s (expireListening s) := by
  unfold expireListening
  have h : OnlyWrites [.bus, .roundTimer, .station, .settle, .members, .capture, .ring, .publishQueue, .responder, .coverage, .landing, .engine, .banks, .freeSeq, .requester, .port] s ((restartMarkTimer s).setStation { (restartMarkTimer s).station with
      silentExpiries := saturate Config.silentExpiryLimit (restartMarkTimer s).station.silentExpiries 1 }) :=
    .followedBy ((restartMarkTimer_writes _).widen (by decide)) (setStation_writes _ _) (by decide)
  dsimp only
  split
  · exact h.followedBy (joinAlone_writes _) (by decide)
  · exact h

theorem expireMember_writes (s : State) : OnlyWrites [.bus, .roundTimer] s (expireMember s) := by
  unfold expireMember
  dsimp only
  split
  · exact (setRoundTimer_writes _ _).widen (by decide)
  · exact .followedBy ((setRoundTimer_writes _ _).widen (by decide)) (sendMark_writes _) (by decide)

theorem expireMarkTimer_writes (s : State) : OnlyWrites [.bus, .roundTimer, .station, .settle, .members, .capture, .ring, .publishQueue, .responder, .coverage, .landing, .engine, .banks, .freeSeq, .requester, .port] s (expireMarkTimer s) := by
  unfold expireMarkTimer
  split
  · exact .refl
  split
  · exact expireListening_writes _
  split
  · exact (expireMember_writes _).widen (by decide)
  · exact .refl

end Sys2Proof.Machine
end

