-- ==== Sys2Proof/Laws/Ops.lean ====
section
/-! SUPPORT. What the shared operations do: orders of arrivals, counters, the event record, the two banks by their roles. -/

namespace Sys2Proof.Machine

/-! ## Orders (log entry 2) -/

theorem mem_firstOnly {α : Type} [DecidableEq α] (l : List α) (a : α) : a ∈ firstOnly l ↔ a ∈ l := by
  induction l with
  | nil => rfl
  | cons b l ih =>
    simp only [firstOnly, List.mem_cons, List.mem_filter, ih, decide_eq_true_eq]
    by_cases h : a = b <;> simp [h]

theorem nodup_firstOnly {α : Type} [DecidableEq α] (l : List α) : (firstOnly l).Nodup := by
  induction l with
  | nil => exact List.nodup_nil
  | cons b l ih =>
    rw [firstOnly, List.nodup_cons]
    exact ⟨by simp, ih.filter _⟩

theorem mem_completeOrder {α : Type} [DecidableEq α] (named all : List α) (a : α) :
    a ∈ completeOrder named all ↔ a ∈ named ∨ a ∈ all := by
  rw [completeOrder, List.mem_append, mem_firstOnly, List.mem_filter]
  by_cases h : a ∈ named <;> simp [h]

theorem nodup_completeOrder {α : Type} [DecidableEq α] (named all : List α) (h : all.Nodup) :
    (completeOrder named all).Nodup := by
  refine List.Nodup.append (nodup_firstOnly _) (h.filter _) ?_
  intro a ha hb
  rw [mem_firstOnly] at ha
  simp [ha] at hb

/-- Every arrival of a round start is taken once, whatever order is given. -/
theorem roundOrder_once (o : Orders) : (roundOrder o).Nodup ∧ ∀ a, a ∈ roundOrder o := by
  refine ⟨nodup_completeOrder _ _ (by decide), fun a => (mem_completeOrder _ _ _).mpr (.inr ?_)⟩
  cases a <;> decide

/-- Every arrival of a STATE is taken once, whatever order is given. -/
theorem stateOrder_once (o : Orders) : (stateOrder o).Nodup ∧ ∀ a, a ∈ stateOrder o := by
  refine ⟨nodup_completeOrder _ _ (by decide), fun a => (mem_completeOrder _ _ _).mpr (.inr ?_)⟩
  cases a <;> decide

/-! ## Counters (R165) -/

theorem saturate_le (limit count n : Nat) : saturate limit count n ≤ limit := Nat.min_le_left _ _

theorem Counter.place_lt (c : Counter) : c.place < 22 := by
  cases c <;> decide

theorem Counter.place_injective (c d : Counter) (h : c.place = d.place) : c = d := by
  cases c <;> cases d <;> first | rfl | exact absurd h (by decide)

/-- Raising a counter, and only that one (R165). -/
theorem counter_raise (c d : Counter) (n : Nat) (s : State) (h : s.port.counters.length = 22) :
    (raise c n s).counter d = if d = c then saturate 65535 (s.counter c) n else s.counter d := by
  have hc : c.place < s.port.counters.length := h ▸ c.place_lt
  have hset : (raise c n s).port.counters =
      s.port.counters.set c.place (saturate 65535 (s.counter c) n) := rfl
  unfold State.counter at hset ⊢
  rw [hset]
  by_cases e : d = c
  · subst e
    simp [List.getD_eq_getElem?_getD, hc]
  · have hp : c.place ≠ d.place := fun hp => e (Counter.place_injective _ _ hp.symm)
    simp [List.getD_eq_getElem?_getD, hp, e]

theorem raise_counters_length (c : Counter) (n : Nat) (s : State) :
    (raise c n s).port.counters.length = s.port.counters.length := List.length_set

theorem raise_events (c : Counter) (n : Nat) (s : State) : (raise c n s).port.events = s.port.events := rfl

theorem post_counters (k : EventKind) (f : Frame) (d : Byte) (s : State) :
    (post k f d s).port.counters = s.port.counters := by
  unfold post
  split <;> rfl

/-- A posted event is the newest of the record, or is dropped and counted (R166). -/
theorem post_record (k : EventKind) (f : Frame) (d : Byte) (s : State) :
    (s.port.events.length < 32 ∧ (post k f d s).port.dropped = s.port.dropped ∧
      (post k f d s).port.events =
        s.port.events ++ [{ kind := k, round := s.roundTimer.number, frame := f, detail := d }]) ∨
    (32 ≤ s.port.events.length ∧ (post k f d s).port.events = s.port.events ∧
      (post k f d s).port.dropped = min 255 (s.port.dropped + 1)) := by
  unfold post
  by_cases h : s.port.events.length < Config.eventRecordSize
  · rw [if_pos h]
    exact .inl ⟨h, rfl, rfl⟩
  · rw [if_neg h]
    exact .inr ⟨Nat.not_lt.mp h, rfl, rfl⟩

/-! ## The banks by their roles (R120) -/

@[simp] theorem setBack_back (c : BankControl) (b : Bank) : (c.setBack b).back = b := by
  unfold BankControl.setBack
  split <;> simp [BankControl.back, *]

@[simp] theorem setBack_frontBank (c : BankControl) (b : Bank) : (c.setBack b).frontBank = c.frontBank := by
  unfold BankControl.setBack
  split <;> simp [BankControl.frontBank, *]

@[simp] theorem setBack_front (c : BankControl) (b : Bank) : (c.setBack b).front = c.front := by
  unfold BankControl.setBack
  split <;> rfl

@[simp] theorem setBack_backFrame (c : BankControl) (b : Bank) : (c.setBack b).backFrame = c.backFrame := by
  unfold BankControl.setBack
  split <;> rfl

@[simp] theorem setBack_clear (c : BankControl) (b : Bank) : (c.setBack b).clear = c.clear := by
  unfold BankControl.setBack
  split <;> rfl

@[simp] theorem setBack_swapPending (c : BankControl) (b : Bank) : (c.setBack b).swapPending = c.swapPending := by
  unfold BankControl.setBack
  split <;> rfl

@[simp] theorem setBack_shown (c : BankControl) (b : Bank) : (c.setBack b).shown = c.shown := by
  unfold BankControl.setBack
  split <;> rfl

/-- Exchanging the roles makes the back bank the front bank (R132). -/
theorem exchanged_front (c : BankControl) : ({ c with front := c.front.other } : BankControl).frontBank = c.back := by
  unfold BankControl.frontBank BankControl.back BankName.other
  cases c.front <;> rfl

end Sys2Proof.Machine
end

