-- ==== Sys2Proof/Laws/Effects.lean ====
section
/-! SUPPORT. What the port's postings, the repair list, the coverage table, the retain ring and the end of a burst leave: one lemma for
each, said once. -/

namespace Sys2Proof.Machine

/-- What a post leaves of the port, by the port and the round number alone. -/
theorem post_port_congr (k : EventKind) (f : Frame) (d : Byte) {s t : State} (hp : t.port = s.port)
    (hn : t.roundTimer.number = s.roundTimer.number) : (post k f d t).port = (post k f d s).port := by
  unfold post
  rw [hp, hn]
  split <;> rfl

/-- A post changes the port alone. -/
theorem post_eq_setPort (k : EventKind) (f : Frame) (d : Byte) (s : State) : post k f d s = s.setPort (post k f d s).port := by
  unfold post
  split <;> rfl

/-- What a raise leaves of the port, by the port alone. -/
theorem raise_port_congr (c : Counter) (n : Nat) {s t : State} (hp : t.port = s.port) :
    (raise c n t).port = (raise c n s).port := by
  unfold raise State.counter
  rw [hp]
  rfl

/-- The repair list after an entry has been looked for: earlier entries stay where they are. -/
theorem composeFor_keeps (s : State) (k : Nat) :
    s.requester.entries <+: (composeFor s k).requester.entries ∧
      (composeFor s k).requester.unrepairable = s.requester.unrepairable ∧
      (composeFor s k).requester.published = s.requester.published := by
  unfold composeFor
  split <;> simp

/-- A gap scan appends entries and touches no mark. -/
theorem gapScan_keeps (s : State) :
    s.requester.entries <+: (gapScan s).requester.entries ∧
      (gapScan s).requester.unrepairable = s.requester.unrepairable ∧
      (gapScan s).requester.published = s.requester.published := by
  unfold gapScan
  generalize s.image.contributing = l
  induction l generalizing s with
  | nil => exact ⟨List.prefix_refl _, rfl, rfl⟩
  | cons a l ih =>
    have h := composeFor_keeps s a
    have h' := ih (composeFor s a)
    exact ⟨h.1.trans h'.1, h'.2.1.trans h.2.1, h'.2.2.trans h.2.2⟩

theorem postFailure_requester (c : ConditionCode) (e : RepairEntry) (s : State) :
    (postFailure c e s).requester = s.requester := postFailure_writes c e s .requester (by decide)

/-- A closing entry leaves the others in their order, before those the gap scan appends; its code decides mark and event. -/
theorem closeEntry_keeps (c : ConditionCode) (e : RepairEntry) (s : State) :
    s.requester.entries.filter (fun x => x.tag != e.tag) <+: (closeEntry c e s).requester.entries ∧
      (closeEntry c e s).requester.unrepairable =
        (if c.marksUnrepairable then s.requester.unrepairable.set e.stream true else s.requester.unrepairable) ∧
      (closeEntry c e s).port = (postFailure c e s).port := by
  have hg : ∀ u, (gapScan u).port = u.port := fun u => gapScan_writes u .port (by decide)
  unfold closeEntry
  refine ⟨List.IsPrefix.trans ?_ (gapScan_keeps _).1, (gapScan_keeps _).2.1.trans ?_, (hg _).trans ?_⟩
  · simp only [setEntries, postFailure_requester]
    split <;> simp
  · simp only [setEntries, postFailure_requester]
    split <;> simp
  · simp only [setEntries]
    split
    · simp only [postFailure]
      cases h : c.failure with
      | none => simp
      | some n => simp only []; exact post_port_congr _ _ _ rfl rfl
    · rfl

/-- The entry with a tag is found when tags differ. -/
theorem find?_by_tag (l : List RepairEntry) (f : RepairEntry → Bool) (e : RepairEntry) (he : e ∈ l) (hf : f e = true)
    (hn : (l.map (·.tag)).Nodup) (ht : ∀ x, f x = true → x.tag = e.tag) : l.find? f = some e := by
  induction l with
  | nil => simp at he
  | cons a l ih =>
    simp only [List.map_cons, List.nodup_cons] at hn
    rcases List.mem_cons.1 he with h | h
    · subst h; simp [hf]
    · have ha : f a = false := by
        by_contra ha
        exact hn.1 (List.mem_map.2 ⟨e, h, (ht a (by simpa using ha)).symm⟩)
      simp [ha, ih h hn.2]

/-- Claiming a piece sets its entry's flag. -/
theorem coverageEntry_claim (img : Image) (c : Coverage) (a y i : Nat) (e : CoverageEntry)
    (h : coverageEntry img c a y i = some e) :
    coverageEntry img (c.claim img a y i) a y i = some { e with claimed := true } := by
  unfold coverageEntry at *
  split at h
  · rename_i hy
    rw [if_pos hy]
    have hrow : (c.claim img a y i).rows.getD (y - img.tileY) [] = claimInRow a i (c.rows.getD (y - img.tileY) []) := by
      simp only [Coverage.claim, List.getD_eq_getElem?_getD]
      cases hq : c.rows[y - img.tileY]? <;> simp [hq, claimInRow]
    rw [hrow]
    generalize c.rows.getD (y - img.tileY) [] = l at h
    induction l with
    | nil => simp at h
    | cons b l ih =>
      simp only [claimInRow, List.map_cons, List.find?_cons] at *
      by_cases hb : b.isFor a i = true
      · have h' : ({ b with claimed := true } : CoverageEntry).isFor a i = true := hb
        simp [hb] at h
        subst h
        simp [hb, h']
      · have hb : b.isFor a i = false := by simpa using hb
        simp only [hb, Bool.false_eq_true, if_false] at h ⊢
        exact ih h
  · cases h

/-- Pieces entering a ring that is within its size: the newest 1024 stay. -/
theorem foldl_enterRing (l : List Piece) : ∀ r : List RingEntry, r.length ≤ 1024 →
    l.foldl enterRing r =
      (r ++ l.map (fun p => RingEntry.mk p.row p.index p.count p.fill p.payload)).drop (r.length + l.length - 1024) := by
  induction l with
  | nil =>
    intro r h
    have h0 : r.length - 1024 = 0 := by omega
    simp [h0]
  | cons p l ih =>
    intro r h
    have e : enterRing r p = (r ++ [RingEntry.mk p.row p.index p.count p.fill p.payload]).drop (r.length + 1 - 1024) := by
      unfold enterRing
      by_cases hr : r.length < Config.retainRingSize
      · have hr' : r.length < 1024 := hr
        have h0 : r.length + 1 - 1024 = 0 := by omega
        simp [hr, h0]
      · have hr' : ¬ r.length < 1024 := hr
        have h0 : r.length + 1 - 1024 = 1 := by omega
        rw [if_neg hr, h0, List.drop_append_of_le_length (by omega)]
    have hl : (enterRing r p).length = r.length + 1 - (r.length + 1 - 1024) := by rw [e]; simp
    rw [List.foldl_cons, ih _ (by omega), hl, e, List.map_cons]
    rw [show r ++ RingEntry.mk p.row p.index p.count p.fill p.payload ::
        l.map (fun p => RingEntry.mk p.row p.index p.count p.fill p.payload) =
        (r ++ [RingEntry.mk p.row p.index p.count p.fill p.payload]) ++
          l.map (fun p => RingEntry.mk p.row p.index p.count p.fill p.payload) by simp]
    rw [← List.drop_append_of_le_length (by simp only [List.length_append, List.length_singleton]; omega), List.drop_drop]
    have hn : r.length + 1 - 1024 + (r.length + 1 - (r.length + 1 - 1024) + l.length - 1024) =
        r.length + (p :: l).length - 1024 := by
      simp only [List.length_cons]
      omega
    rw [hn]

/-- A burst over leaves the station where it was. -/
theorem afterBurst_not_isolated {s : State} (h : s.onTheBus = true) : (afterBurst s).isIsolated = false := by
  have hs : (afterBurst s).station = s.station := rfl
  unfold State.onTheBus State.isMember State.isListen at h
  unfold State.isIsolated
  rw [hs]
  revert h
  cases s.station.state <;> simp

/-- The end of a burst that is only heard: it is judged and concluded. -/
theorem burstTaken_heard {s : State} {heard : List Byte} {opens : Bool} {j : Judgment} (h : Hears s heard opens j)
    (o : Orders) :
    ∃ repeated, exec (.burstTaken heard o) s = .next (concludeBurst ⟨opens, repeated⟩ none j o (afterBurst s)) := by
  obtain ⟨hb, ⟨hh, h1, h2, h3⟩, hd⟩ := h
  refine ⟨hh.repeated, ?_⟩
  have hi := afterBurst_not_isolated hb
  simp only [exec, execBurstTaken, takeBurst, h1, hb, if_true, endBurst, ownReadback, hd, Option.map_none, settleReadback,
    passedItem]
  subst h2
  subst h3
  show Host.Outcome.next
    (if (afterBurst s).isIsolated = true then _ else concludeBurst hh none _ o (afterBurst s)) = _
  rw [hi]
  rfl

/-- The end of a valid burst heard by a MEMBER outside the MARK position: it is delivered. -/
theorem burstTaken_delivered {s : State} {heard : List Byte} {b : Burst} (h : Hears s heard false (.valid b))
    (hm : s.isMember = true) (o : Orders) :
    exec (.burstTaken heard o) s = .next (deliverMember b o (afterBurst s)) := by
  obtain ⟨r, hr⟩ := burstTaken_heard h o
  have h' : (afterBurst s).isMember = true := hm
  rw [hr]
  simp [concludeBurst, countJudgment, reportAndDeliver, reportPassed, deliver, h']

end Sys2Proof.Machine
end

