-- ==== Sys2Proof/Laws/Repair.lean ====
section
/-! SUPPORT. What the gap scan composes: the answer of the coverage table to its second question, the ranges gathered from it, the
next tag, and the conditions of composition, each as Safety.lean has them. -/

namespace Sys2Proof.Machine

/-! ## Gaps (R111) -/

/-- A row of the second answer, with the indices it gives, is a tile row, and an index is given exactly when its flag is clear. -/
theorem mem_gaps {img : Image} {c : Coverage} {k y : Nat} {is : List Nat} :
    (y, is) ∈ gaps img c k ↔
      img.tileY ≤ y ∧ y - img.tileY < c.rows.length ∧ is = unclaimedIndices k (c.rows.getD (y - img.tileY) []) ∧ is ≠ [] := by
  simp only [gaps, List.mem_filter, List.mem_map, List.mem_range, Prod.mk.injEq, Bool.not_eq_true', List.isEmpty_eq_false_iff]
  constructor
  · rintro ⟨⟨v, hv, rfl, rfl⟩, hn⟩
    simp only [Nat.add_sub_cancel_left]
    exact ⟨Nat.le_add_right _ _, hv, by trivial, hn⟩
  · rintro ⟨hy, hv, rfl, hn⟩
    exact ⟨⟨y - img.tileY, hv, by omega, by trivial⟩, hn⟩

theorem unclaimedIndices_ne_nil {k : Nat} {l : List CoverageEntry} :
    unclaimedIndices k l ≠ [] ↔ ∃ e ∈ l, e.expected.stream = k ∧ e.claimed = false := by
  simp [unclaimedIndices]

theorem mem_gapRows {s : State} {k y : Nat} : y ∈ gapRows s.image s.coverage k ↔ HasGap s k y := by
  unfold gapRows HasGap
  simp only [List.mem_map, Prod.exists, exists_and_right, exists_eq_right, mem_gaps]
  constructor
  · rintro ⟨is, hy, _, rfl, hn⟩
    exact ⟨hy, unclaimedIndices_ne_nil.1 hn⟩
  · rintro ⟨hy, h⟩
    refine ⟨_, hy, ?_, rfl, unclaimedIndices_ne_nil.2 h⟩
    obtain ⟨e, he, _⟩ := h
    by_contra hlt
    rw [List.getD_eq_default _ _ (by omega)] at he
    exact absurd he (by simp)

theorem gapRows_ascending (img : Image) (c : Coverage) (k : Nat) : (gapRows img c k).Pairwise (· < ·) := by
  unfold gapRows gaps
  rw [List.pairwise_map]
  refine List.Pairwise.sublist List.filter_sublist ?_
  rw [List.pairwise_map]
  exact List.pairwise_lt_range.imp (fun h => by simpa using h)

/-! ## Ranges (R139) -/

theorem gatherRanges_first_le {ys : List Nat} {cur : RowRange} (hy : ∀ y ∈ ys, cur.first ≤ y) (ha : ys.Pairwise (· < ·)) :
    ∀ r ∈ gatherRanges ys cur, cur.first ≤ r.first := by
  induction ys generalizing cur with
  | nil => simp [gatherRanges]
  | cons y ys ih =>
    have hys : ∀ z ∈ ys, y < z := (List.pairwise_cons.1 ha).1
    have ha' := (List.pairwise_cons.1 ha).2
    have h0 : cur.first ≤ y := hy y (by simp)
    intro r hr
    unfold gatherRanges at hr
    split at hr
    · exact ih (cur := { cur with count := cur.count + 1 }) (fun z hz => hy z (by simp [hz])) ha' r hr
    · rcases List.mem_cons.1 hr with rfl | hr
      · exact le_refl _
      · exact le_trans h0 (ih (cur := { first := y, count := 1 }) (fun z hz => (hys z hz).le) ha' r hr)

theorem gatherRanges_gathers {ys : List Nat} {cur : RowRange} (hc : 1 ≤ cur.count ∧ cur.count ≤ 255)
    (hy : ∀ y ∈ ys, cur.first + cur.count ≤ y) (ha : ys.Pairwise (· < ·)) :
    GathersRows (fun y => (cur.first ≤ y ∧ y < cur.first + cur.count) ∨ y ∈ ys) (gatherRanges ys cur) := by
  induction ys generalizing cur with
  | nil =>
    refine ⟨by simp [gatherRanges], by simp [gatherRanges], by simp [gatherRanges, hc], ?_⟩
    simp only [gatherRanges, List.mem_singleton]
    rintro r rfl q rfl h
    omega
  | cons y ys ih =>
    have hys : ∀ z ∈ ys, y < z := (List.pairwise_cons.1 ha).1
    have ha' := (List.pairwise_cons.1 ha).2
    have h0 : cur.first + cur.count ≤ y := hy y (by simp)
    unfold gatherRanges
    split
    · next h =>
      simp only [Bool.and_eq_true, decide_eq_true_eq] at h
      have g := ih (cur := { cur with count := cur.count + 1 }) ⟨by simp, by simp; omega⟩
        (fun z hz => by have := hys z hz; simp; omega) ha'
      refine ⟨fun z => ?_, g.ascending, g.counts, g.cut⟩
      rw [← g.covers z]
      simp only [List.mem_cons]
      constructor
      · rintro (⟨a, b⟩ | rfl | a)
        · exact .inl ⟨a, by omega⟩
        · exact .inl ⟨by omega, by omega⟩
        · exact .inr a
      · rintro (⟨a, b⟩ | a)
        · by_cases hz : z = y
          · exact .inr (.inl hz)
          · exact .inl ⟨a, by omega⟩
        · exact .inr (.inr a)
    · next h =>
      simp only [Bool.and_eq_true, decide_eq_true_eq] at h
      have g := ih (cur := { first := y, count := 1 }) ⟨by simp, by simp⟩ (fun z hz => hys z hz) ha'
      have hf := gatherRanges_first_le (cur := { first := y, count := 1 }) (fun z hz => (hys z hz).le) ha'
      have hq : ∀ q ∈ gatherRanges ys { first := y, count := 1 }, y ≤ q.first := hf
      refine ⟨fun z => ?_, ?_, ?_, ?_⟩
      · simp only [List.mem_cons, exists_eq_or_imp, ← g.covers z]
        constructor
        · rintro (a | rfl | a)
          · exact .inl a
          · exact .inr (.inl ⟨by simp, by simp⟩)
          · exact .inr (.inr a)
        · rintro (a | ⟨a, b⟩ | a)
          · exact .inl a
          · exact .inr (.inl (by simp at a b; omega))
          · exact .inr (.inr a)
      · refine List.pairwise_cons.2 ⟨fun q hq' => ?_, g.ascending⟩
        exact le_trans h0 (hq q hq')
      · simp only [List.mem_cons, forall_eq_or_imp]
        exact ⟨hc, g.counts⟩
      · simp only [List.mem_cons, forall_eq_or_imp]
        refine ⟨⟨fun e => by omega, fun q hq' e => ?_⟩, fun r hr => ⟨fun e => ?_, g.cut r hr⟩⟩
        · have := hq q hq'
          by_contra hne
          exact h ⟨by omega, by omega⟩
        · have := hq r hr
          omega

/-- The ranges of an ascending list of rows are the ones R139 gathers of them. -/
theorem rowRanges_gathers {ys : List Nat} (ha : ys.Pairwise (· < ·)) : GathersRows (· ∈ ys) (rowRanges ys) := by
  cases ys with
  | nil => exact ⟨by simp [rowRanges], by simp [rowRanges], by simp [rowRanges], by simp [rowRanges]⟩
  | cons y ys =>
    have g := gatherRanges_gathers (ys := ys) (cur := { first := y, count := 1 }) ⟨by simp, by simp⟩
      (fun z hz => (List.pairwise_cons.1 ha).1 z hz) (List.pairwise_cons.1 ha).2
    refine ⟨fun z => ?_, g.ascending, g.counts, g.cut⟩
    unfold rowRanges
    rw [← g.covers z, List.mem_cons]
    simp only []
    constructor
    · rintro (rfl | h)
      · exact .inl ⟨le_refl _, by omega⟩
      · exact .inr h
    · rintro (⟨a, b⟩ | h)
      · exact .inl (by omega)
      · exact .inr h

/-! ## Composition (R138, R140) -/

theorem entryOfTag_isNone {s : State} {tag : Nat} :
    (entryOfTag s tag).isNone = true ↔ ∀ e ∈ s.requester.entries, e.tag ≠ tag := by
  simp [entryOfTag]

/-- Among eight successive tags one is free, since fewer entries than that are active (R140). -/
theorem exists_free_tag {s : State} (h : s.requester.entries.length < 8) :
    ∃ i, 1 ≤ i ∧ i ≤ 8 ∧ ∀ e ∈ s.requester.entries, e.tag ≠ (s.requester.lastTag + i) % 8 := by
  by_contra hno
  push Not at hno
  have hsub : (List.range 8).map (fun i => (s.requester.lastTag + (i + 1)) % 8) ⊆ s.requester.entries.map (·.tag) := by
    intro t ht
    simp only [List.mem_map, List.mem_range] at ht
    obtain ⟨i, hi, rfl⟩ := ht
    obtain ⟨e, he, h'⟩ := hno (i + 1) (by omega) (by omega)
    exact List.mem_map.2 ⟨e, he, h'⟩
  have hnd : ((List.range 8).map (fun i => (s.requester.lastTag + (i + 1)) % 8)).Nodup := by
    refine List.Nodup.map_on (fun a ha b hb hab => ?_) List.nodup_range
    simp only [List.mem_range] at ha hb
    omega
  have := (hnd.subperm hsub).length_le
  simp at this
  omega

/-- The first of eight that passes a test is found. -/
theorem find?_of_eight {f : Nat → Bool} {a i : Nat} (h1 : 1 ≤ i) (h8 : i ≤ 8) (hi : f ((a + i) % 8) = true)
    (hmin : ∀ j, 1 ≤ j → j < i → f ((a + j) % 8) = false) :
    (([1, 2, 3, 4, 5, 6, 7, 8].map (fun i => (a + i) % 8)).find? f).getD 0 = (a + i) % 8 := by
  have m1 := hmin 1
  have m2 := hmin 2
  have m3 := hmin 3
  have m4 := hmin 4
  have m5 := hmin 5
  have m6 := hmin 6
  have m7 := hmin 7
  clear hmin
  interval_cases i <;> simp_all

theorem nextTag_isNextTag {s : State} (h : s.requester.entries.length < 8) : IsNextTag s.requester (nextTag s) := by
  obtain ⟨i₀, h1, h8, hq⟩ := exists_free_tag h
  have hex : ∃ i, 1 ≤ i ∧ (entryOfTag s ((s.requester.lastTag + i) % 8)).isNone = true := ⟨i₀, h1, entryOfTag_isNone.2 hq⟩
  classical
  obtain ⟨hi1, hi⟩ := Nat.find_spec hex
  have hi8 : Nat.find hex ≤ 8 := le_trans (Nat.find_min' hex ⟨h1, entryOfTag_isNone.2 hq⟩) h8
  have hmin : ∀ j, 1 ≤ j → j < Nat.find hex → (entryOfTag s ((s.requester.lastTag + j) % 8)).isNone = false := by
    intro j hj hlt
    exact Bool.eq_false_iff.2 (fun h => Nat.find_min hex hlt ⟨hj, h⟩)
  generalize Nat.find hex = i at *
  have hn : nextTag s = (s.requester.lastTag + i) % 8 := find?_of_eight hi1 hi8 hi hmin
  refine ⟨i, hi1, hi8, hn, ?_, fun j hj hlt => ?_⟩
  · rw [hn]
    exact entryOfTag_isNone.1 hi
  · have := hmin j hj hlt
    by_contra hno
    push Not at hno
    rw [entryOfTag_isNone.2 hno] at this
    exact absurd this (by simp)

theorem mayCompose_iff_wanted {s : State} {k : Nat} : mayCompose s k = true ↔ Wanted s k := by
  have hg : (gapRows s.image s.coverage k).isEmpty = false ↔ ∃ y, HasGap s k y := by
    simp only [List.isEmpty_eq_false_iff, ← mem_gapRows, List.ne_nil_iff_exists_cons]
    constructor
    · rintro ⟨a, l, h⟩
      exact ⟨a, by simp [h]⟩
    · rintro ⟨y, hy⟩
      cases h : gapRows s.image s.coverage k with
      | nil => simp [h] at hy
      | cons a l => exact ⟨a, l, rfl⟩
  simp only [mayCompose, Bool.and_eq_true, Bool.or_eq_true, beq_iff_eq, Bool.not_eq_true', hg, decide_eq_true_eq]
  constructor
  · rintro ⟨⟨⟨⟨⟨a, b⟩, c⟩, d⟩, e⟩, f⟩
    exact ⟨a, by simpa [State.present] using b, c, by simpa [entryOfStream] using d, e, f⟩
  · rintro ⟨a, b, c, d, e, f⟩
    exact ⟨⟨⟨⟨⟨a, by simpa [State.present] using b⟩, c⟩, by simpa [entryOfStream] using d⟩, e⟩, f⟩

/-- The entry composed for a wanted stream is the one R138 to R140 describe. -/
theorem newEntry_composedFor {s : State} {k : Nat} (h : Wanted s k) : ComposedFor s k (newEntry s k) := by
  refine ⟨nextTag_isNextTag (by have := h.room; omega), rfl, rfl, rfl, rfl, ?_, rfl, rfl, rfl, rfl, rfl⟩
  have g := rowRanges_gathers (gapRows_ascending s.image s.coverage k)
  refine ⟨_, ⟨fun y => ?_, g.ascending, g.counts, g.cut⟩, rfl⟩
  rw [← g.covers y]
  exact mem_gapRows.symm

/-! ## What a gap scan reads and leaves -/

/-- What a scan composes rests on the requester, the loader, the coverage table, the membership table and the settle unit alone. -/
theorem composeFor_congr {s t : State} (hr : t.requester = s.requester) (hl : t.loader = s.loader) (hc : t.coverage = s.coverage)
    (hm : t.members = s.members) (hs : t.settle = s.settle) (k : Nat) :
    (composeFor t k).requester = (composeFor s k).requester := by
  have hi : t.image = s.image := by simp only [State.image, hl]
  have ht : nextTag t = nextTag s := by simp only [nextTag, entryOfTag, hr]
  have hw : mayCompose t k = mayCompose s k := by
    simp only [mayCompose, State.present, State.member, entryOfStream, hr, hi, hc, hm]
  have hn : newEntry t k = newEntry s k := by simp only [newEntry, ht, State.openFrame, hi, hc, hs]
  simp only [composeFor, hw, hn, ht, hr]
  split <;> simp [hr]

theorem gapScan_congr {s t : State} (hr : t.requester = s.requester) (hl : t.loader = s.loader) (hc : t.coverage = s.coverage)
    (hm : t.members = s.members) (hs : t.settle = s.settle) : (gapScan t).requester = (gapScan s).requester := by
  have hi : t.image = s.image := by simp only [State.image, hl]
  unfold gapScan
  rw [hi]
  generalize s.image.contributing = l
  induction l generalizing s t with
  | nil => exact hr
  | cons a l ih =>
    have w := fun u f (hf : f ∉ [Field.requester]) => composeFor_writes u a f hf
    refine ih (composeFor_congr hr hl hc hm hs a) ?_ ?_ ?_ ?_ ?_
    · exact (w t .loader (by decide)).trans (hl.trans (w s .loader (by decide)).symm)
    · exact (w t .coverage (by decide)).trans (hc.trans (w s .coverage (by decide)).symm)
    · exact (w t .members (by decide)).trans (hm.trans (w s .members (by decide)).symm)
    · exact (w t .settle (by decide)).trans (hs.trans (w s .settle (by decide)).symm)
    · simp only [State.image]
      rw [w t .loader (by decide), w s .loader (by decide), hl]

/-- Every entry after a scan was there before or is new. -/
theorem gapScan_fresh (s : State) :
    ∀ e ∈ (gapScan s).requester.entries, e ∈ s.requester.entries ∨ (e.state = .composed ∧ e.attempts = 1) := by
  unfold gapScan
  generalize s.image.contributing = l
  induction l generalizing s with
  | nil => exact fun e h => .inl h
  | cons a l ih =>
    intro e he
    rcases ih (composeFor s a) e he with h | h
    · unfold composeFor at h
      split at h
      · rcases List.mem_append.1 h with h | h
        · exact .inl h
        · rw [List.mem_singleton.1 h]
          exact .inr ⟨rfl, rfl⟩
      · exact .inl h
    · exact .inr h

/-- A closing entry's list and marks, and the scan over them. -/
theorem closeEntry_requester (c : ConditionCode) (e : RepairEntry) (s : State) :
    (closeEntry c e s).requester =
      (gapScan (s.setRequester { s.requester with
        entries := s.requester.entries.filter (fun x => x.tag != e.tag),
        unrepairable :=
          if c.marksUnrepairable then s.requester.unrepairable.set e.stream true else s.requester.unrepairable })).requester := by
  have w := fun u f (hf : f ∉ [Field.port]) => postFailure_writes c e u f hf
  unfold closeEntry
  refine gapScan_congr ?_ ?_ ?_ ?_ ?_
  · simp only [setEntries, postFailure_requester]
    split <;> simp
  · refine (w _ .loader (by decide)).trans ?_
    split <;> rfl
  · refine (w _ .coverage (by decide)).trans ?_
    split <;> rfl
  · refine (w _ .members (by decide)).trans ?_
    split <;> rfl
  · refine (w _ .settle (by decide)).trans ?_
    split <;> rfl

/-- After a closure other than a settle's an entry with the closed one's tag is a new one. -/
theorem closeEntry_leaves (c : ConditionCode) (e : RepairEntry) (s : State) :
    ∀ x ∈ (closeEntry c e s).requester.entries, x.tag = e.tag → x.state = .composed ∧ x.attempts = 1 := by
  intro x hx ht
  rw [closeEntry_requester] at hx
  rcases gapScan_fresh _ x hx with h | h
  · simp [ht] at h
  · exact h

end Sys2Proof.Machine
end

