-- ==== Sys2Proof/Laws/Publication.lean ====
section
/-! SUPPORT. The published flag's test, completeness, a service of requests, and the opening of the coverage table, each as
Safety.lean has it. -/

namespace Sys2Proof.Machine

/-! ## Published flag (R94, R137, R138) -/

/-- One test of the flag's conditions in `u`, a state that differs from the MEMBER `s` in what the capture unit writes. -/
theorem checkPublished_tests {s u : State} (hm : s.isMember = true)
    (hw : OnlyWrites [.capture, .ring, .publishQueue, .port] s u) (hp : u.capture.published = s.capture.published) :
    TestsPublished s (checkPublished u) := by
  have hl : u.loader = s.loader := hw .loader (by decide)
  have hi : u.image = s.image := by simp only [State.image, hl]
  have hr : u.requester = s.requester := hw .requester (by decide)
  have hu : u.isMember = true := by
    have h : u.station = s.station := hw .station (by decide)
    simp only [State.isMember, h] at hm ⊢
    exact hm
  have hg : ∀ (x : Requester) (v : State), v.setRequester x = u.setRequester x ∨
      v.setRequester x = (u.setCapture { u.capture with published := true }).setRequester x →
      (gapScan (v.setRequester x)).requester = (gapScan (s.setRequester x)).requester := by
    rintro x v (h | h) <;> rw [h] <;>
      exact gapScan_congr rfl hl (hw .coverage (by decide)) (hw .members (by decide)) (hw .settle (by decide))
  have hcap : ∀ v : State, (gapScan v).capture = v.capture := fun v => gapScan_writes v .capture (by decide)
  have hq : ∀ v : State, (gapScan v).publishQueue = v.publishQueue := fun v => gapScan_writes v .publishQueue (by decide)
  have hc : publishedConditions u = true ↔
      u.capture.offer ≠ none ∧ u.capture.state = .holding ∧ u.publishQueue = [] := by
    simp [publishedConditions, and_assoc, Option.isSome_iff_ne_none]
  by_cases h : (publishedConditions u && !u.capture.published) = true
  · have h' : publishedConditions u = true ∧ u.capture.published = false := by simpa using h
    have hcond := hc.1 h'.1
    have hs : s.capture.published = false := hp ▸ h'.2
    by_cases ha : (u.setCapture { u.capture with published := true }).actsAsSink = true
    · have hsink : s.image.sinkRole = true := by
        have := (Bool.and_eq_true _ _ ▸ ha).2
        rwa [show (u.setCapture { u.capture with published := true }).image = s.image from hi] at this
      have e : checkPublished u = ownPublished (u.setCapture { u.capture with published := true }) := by
        simp only [checkPublished, h, ha, if_true]
      have ec : (checkPublished u).capture = { u.capture with published := true } := by
        rw [e, ownPublished]
        split
        · rw [markPublished, hcap]; rfl
        · rw [hcap]; rfl
      have eq : (checkPublished u).publishQueue = u.publishQueue := by
        rw [e, ownPublished]
        split
        · rw [markPublished, hq]; rfl
        · rw [hq]; rfl
      refine ⟨?_, ?_, ?_⟩
      · rw [ec, eq]
        simp [hcond]
      · rw [ec]
        simp [hs, hsink]
      · intro _ _ _ a ho
        have hid : ownStreamId (u.setCapture { u.capture with published := true }) = a := by
          simp only [ownStreamId]
          rw [show (u.setCapture { u.capture with published := true }).image = s.image from hi, ho]
          rfl
        have hi' : (u.setCapture { u.capture with published := true }).image = s.image := hi
        rw [e, ownPublished, hid, hi']
        by_cases hk : s.image.contributes a = true
        · rw [if_pos hk, if_pos hk]
          simp only [markPublished]
          have := hg { s.requester with published := s.requester.published.set a true }
            (u.setCapture { u.capture with published := true }) (.inr rfl)
          rw [← this]
          show (gapScan (State.setRequester _ { u.requester with published := u.requester.published.set a true })).requester = _
          rw [hr]
        · rw [if_neg hk, if_neg hk]
          exact gapScan_congr hr hl (hw .coverage (by decide)) (hw .members (by decide)) (hw .settle (by decide))
    · have hsink : s.image.sinkRole = false := by
        have hm' : (u.setCapture { u.capture with published := true }).isMember = true := hu
        have : (u.setCapture { u.capture with published := true }).image.sinkRole = false := by
          simpa [State.actsAsSink, hm'] using ha
        rwa [show (u.setCapture { u.capture with published := true }).image = s.image from hi] at this
      have e : checkPublished u = u.setCapture { u.capture with published := true } := by
        simp only [checkPublished, h, ha, if_true]
        rfl
      rw [e]
      refine ⟨by simp [hcond], fun _ => hr, fun _ _ h => by simp [hsink] at h⟩
  · have e : checkPublished u = u := by simp only [checkPublished, h]; rfl
    rw [e]
    refine ⟨⟨fun hx => .inl (hp ▸ hx), ?_⟩, fun _ => hr, fun hx hy => by rw [hp, hx] at hy; cases hy⟩
    rintro (hx | hx)
    · exact hp ▸ hx
    · have h1 := hc.2 hx
      simpa [h1] using h

/-! ## Completeness (R124, R125) -/

theorem treatedAsNone_iff {s : State} {f : Frame} {k : Nat} :
    streamStanding s f k = .treatedAsNone ↔ TreatedAsNone s f k := by
  unfold streamStanding TreatedAsNone State.present
  generalize f - 1 = p
  by_cases h : (s.image.stream k).publisher = s.image.stationNumber
  · cases ho : s.capture.offer <;> simp [h]
  · simp only [h, if_false, false_and, false_or, ne_eq, not_false_eq_true, true_and]
    by_cases hp : (s.member (s.image.stream k).publisher).status = .present
    · cases hr : (s.member (s.image.stream k).publisher).record with
      | none => simp [hp]
      | some r =>
        simp only [hp, beq_self_eq_true, Bool.not_true, Bool.false_eq_true, if_false]
        by_cases hf : r.settled = p
        · cases hv : r.offer with
          | none => simp [hf, hv]
          | some o =>
            by_cases hs : o.stream = k
            · cases hg : o.frame with
              | none => simp [hf, hv, hs, hg]
              | some g => by_cases hgf : g = f <;> simp [hf, hv, hs, hg, hgf]
            · simp [hf, hv, hs]
        · simp [hf]
    · simp [hp]

theorem awaited_iff {s : State} {f : Frame} {k : Nat} : streamStanding s f k = .awaited ↔ Awaited s f k := by
  unfold streamStanding Awaited State.present
  generalize f - 1 = p
  by_cases h : (s.image.stream k).publisher = s.image.stationNumber
  · cases ho : s.capture.offer <;> simp [h]
  · simp only [h, if_false, false_and, false_or, ne_eq, not_false_eq_true, true_and]
    by_cases hp : (s.member (s.image.stream k).publisher).status = .present
    · cases hr : (s.member (s.image.stream k).publisher).record with
      | none => simp [hp]
      | some r =>
        simp only [hp, beq_self_eq_true, Bool.not_true, Bool.false_eq_true, if_false]
        by_cases hf : r.settled = p
        · cases hv : r.offer with
          | none => simp [hf, hv]
          | some o =>
            by_cases hs : o.stream = k
            · cases hg : o.frame with
              | none => simp [hf, hv, hs, hg]
              | some g => by_cases hgf : g = f <;> simp [hf, hv, hs, hg, hgf]
            · simp [hf, hv, hs]
        · simp [hf]
    · simp [hp]

theorem satisfied_iff {s : State} {f : Frame} {k : Nat} :
    satisfied s f k = true ↔ s.coverage.outstanding.getD k 0 = 0 ∨ TreatedAsNone s f k := by
  rw [← treatedAsNone_iff]
  simp [satisfied, Coverage.fullyClaimed]

theorem mem_contributing {img : Image} {k : Nat} : k ∈ img.contributing ↔ k < 16 ∧ img.contributes k = true := by
  have h : streamIds = List.range 16 := rfl
  rw [Image.contributing, h, List.mem_filter, List.mem_range]

theorem completeFor_iff {s : State} {f : Frame} : completeFor s f = true ↔ Complete s f := by
  simp only [completeFor, Bool.and_eq_true, beq_iff_eq, List.all_eq_true, mem_contributing, satisfied_iff,
    Option.isNone_iff_eq_none, List.isEmpty_iff]
  constructor
  · rintro ⟨⟨⟨⟨⟨⟨a, b⟩, c⟩, d⟩, e⟩, g⟩, h⟩
    exact ⟨a, b, c, d, e, g, fun k hk hc => h k ⟨hk, hc⟩⟩
  · rintro ⟨a, b, c, d, e, g, h⟩
    exact ⟨⟨⟨⟨⟨⟨a, b⟩, c⟩, d⟩, e⟩, g⟩, fun k hk => h k hk.1 hk.2⟩

/-! ## A service (R155, R157, R159, R160) -/

theorem serve_nil (s : State) :
    serve [] s = s.setResponder { s.responder with queue := [], cursor := none, slot := none } := rfl

/-- A service that finds a piece stops at it. -/
theorem serve_found {s : State} {r : QueuedRequest} {rest : List QueuedRequest} {c : Cursor} {e : RingEntry} {gone : Nat}
    (h : walk s.ring (requestPieces (ownEntry s) r.fields) r.gone = .found c e gone) :
    serve (r :: rest) s = s.setResponder { s.responder with
      queue := { r with gone := gone } :: rest, cursor := some c, slot := some (repairSegment s r e) } := by
  rw [serve, h]
  rfl

/-- A service that finds none offers its STATUS, and the next begins. -/
theorem serve_exhausted {s : State} {r : QueuedRequest} {rest : List QueuedRequest} {gone : Nat}
    (h : walk s.ring (requestPieces (ownEntry s) r.fields) r.gone = .exhausted gone) :
    serve (r :: rest) s = serve rest (offerReply (serviceStatus { r with gone := gone }) s) := by
  rw [serve, h]
  rfl

/-! ## Opening the coverage table (R110) -/

/-- The table's opening is what R110 asks. -/
theorem open_openedFor (c : Coverage) (f : Frame) : OpenedFor c (c.open f) f := ⟨rfl, ⟨rfl, rfl⟩, rfl⟩

/-- Opening a table again for another frame is opening it once. -/
theorem openedFor_trans {c d e : Coverage} {f g : Frame} (h : OpenedFor c d f) (h' : OpenedFor d e g) : OpenedFor c e g := by
  refine ⟨?_, ⟨h'.counts.1.trans h.counts.2, h'.counts.2.trans h.counts.2⟩, h'.openFor⟩
  rw [h'.rows, h.rows, List.map_map]
  congr 1
  funext l
  simp

end Sys2Proof.Machine
end

