-- ==== Sys2Proof/WellFormed.lean ====
section
/-! DEFINITION. Which commands can be events of the part at all. A meaning is total and does not ask for this. -/

namespace Sys2Proof

/-- Whether a list names no arrival twice. -/
def namedOnce {α : Type} [DecidableEq α] : List α → Bool
  | [] => true
  | a :: l => !l.contains a && namedOnce l

/-- An order names each arrival at most once. -/
def Orders.wellFormed (o : Orders) : Bool := namedOnce o.round && namedOnce o.state

/-- What is heard in one position is at most 5 µs at 1 Gbit/s (R15, R170). -/
def heardFits (heard : List Byte) : Bool := heard.length ≤ Config.positionBytes

/-- The five command bytes of the status port (R175). -/
def knownCommand (code : Byte) : Bool := 1 ≤ code.toNat && code.toNat ≤ 5

/-- The well-formed commands: the image is 256 bytes (R39), a burst's bytes fit a position (R15), an order names no arrival
twice, and the byte of an unknown command is none of the five codes (R163). -/
def WellFormed : Instr → Bool
  | .configReadComplete image => image.length == Config.imageSize
  | .positionEnd h o => heardFits h && o.wellFormed
  | .burstTaken h o => heardFits h && o.wellFormed
  | .mediumFault h => heardFits h
  | .duplicateNumber h => heardFits h
  | .memberAbsent h o => heardFits h && o.wellFormed
  | .joinByCount h o => heardFits h && o.wellFormed
  | .inputLost h o => heardFits h && o.wellFormed
  | .backoffEnd h o => heardFits h && o.wellFormed
  | .repairTimeout h o => heardFits h && o.wellFormed
  | .unknownCommand code => !knownCommand code
  | .reset => true
  | .startUpClearComplete => true
  | .markTimerExpiry => true
  | .joinAlone => true
  | .burstStart => true
  | .frameStart => true
  | .rowCompletion _ => true
  | .placementComplete => true
  | .bankClearComplete => true
  | .scanStart => true
  | .scanEnd => true
  | .readSummary => true
  | .readMembers => true
  | .readCounters => true
  | .clearCounters => true
  | .readEvent => true
  | .transactionComplete => true
  | .transactionCutShort => true
  | .resetRelease => true

end Sys2Proof
end

