-- ==== Sys2Proof/Tests/Slice0.lean ====
section
/-! SUPPORT. The model's own tests: the checks of WellFormed, a test or two of each command on a small wall, and for each statement's
hypotheses a state and operands that meet them. -/

namespace Sys2Proof.Tests

set_option Elab.async false

open Sys2Proof.Machine

/-! ## A small wall -/

/-- Stream 0 of station 1, WIDE, 5 by 3 at the origin; stream 1 of station 2, NARROW, 300 by 3 beside it. -/
def streamTable : List StreamEntry :=
  [⟨true, 0, 1, 0, 0, 5, 3⟩, ⟨true, 1, 2, 5, 0, 300, 3⟩]

/-- Station 1, source and sink, A = 2, D = 8, silence limit 2, a panel of 8 by 8 at canvas column 1. -/
def image : Image :=
  { stationNumber := 1, sourceRole := true, sinkRole := true, roundPeriod := 200, absenceLimit := 2, deadline := 8,
    silenceLimit := 2, panelWidth := 8, panelHeight := 8, swapAxes := false, reverseRows := false, reverseColumns := false,
    tileX := 1, tileY := 0, background := 0x1234, scanPeriod := 100, streams := streamTable,
    positionMap := List.replicate 48 0 ++ List.replicate 48 1 }

/-- The state with a configuration accepted. -/
def configured (img : Image) (s : State) : State :=
  s.setLoader { reading := false, accepted := some { image := img, digest := 0xABCD, plan := img.coveragePlan } }

/-- An entry of a PRESENT station. -/
def presentEntry (source sink : Bool) (rounds : Nat) : MemberEntry :=
  { status := .present, source := source, sink := sink, rounds := rounds, eligible := sink, record := none }

/-- Stations 2 and 3 PRESENT, station 1 itself. -/
def members : List MemberEntry :=
  [MemberEntry.unheard, { MemberEntry.unheard with status := .self, source := true, sink := true, eligible := true },
    presentEntry true false 0, presentEntry false true 1] ++ List.replicate 28 MemberEntry.unheard

/-- Station 1 as a MEMBER with frame 7 settled, both banks clear and open for frame 8, at a position. -/
def member (p : Position) : State :=
  { configured image State.reset with
    station := { state := .member, fault := .noFault, silentExpiries := 0, joinCount := 3 }
    bus := { Bus.reset with aligned := true, position := p }
    roundTimer := { number := 5, markTimer := some 2005 }
    members := members
    settle := { frame := 7, kind := .commit, openAge := 3, lastMark := none }
    coverage := (Coverage.ofPlan image.coveragePlan).open 8
    banks := { bank0 := Bank.cleared 0x1234, bank1 := Bank.cleared 0x1234, front := .bank0, backFrame := some 8,
               clear := .idle, swapPending := none, shown := some 7 }
    scan := { timer := some 100, position := .row 0, poblHigh := false } }

/-- The same station in LISTEN. -/
def listener (aligned : Bool) (p : Position) : State :=
  { member p with
    station := { state := .listen, fault := .noFault, silentExpiries := 3, joinCount := 2 }
    bus := { Bus.reset with aligned := aligned, position := p }
    settle := { frame := 0, kind := .start, openAge := 0, lastMark := some (7, .commit) } }

/-- A burst is being heard. -/
def hearing (opens : Bool) (s : State) : State :=
  s.setBus { s.bus with hearing := some { opensRound := opens, repeated := false } }

/-- The station drives a burst. -/
def driving (item : SentItem) (contested : Bool) (b : Burst) (s : State) : State :=
  s.setBus { s.bus with driving := some { item := item, contested := contested, bytes := encodeBurst b } }

/-- The capture unit in a capture state with the offer of frame 8. -/
def capturing (c : CaptureState) (d : Disposition) (s : State) : State :=
  s.setCapture { s.capture with state := c, disposition := d, offer := some 8, input := .live }

/-- The state after a command. -/
def after (c : Instr) (s : State) : State :=
  match exec c s with
  | .next t => t
  | _ => s

/-- No order named. -/
def orders : Orders := { round := [], state := [], reportFirst := true }

/-- What was heard is judged as said, at a station on the bus that drives nothing. -/
def hearsAs (s : State) (heard : List Byte) (opens : Bool) (j : Judgment) : Bool :=
  s.onTheBus && s.bus.driving.isNone &&
    match s.bus.hearing with
    | some h => h.opensRound == opens && judge s.image s.bus.position h.repeated heard == j
    | none => false

theorem hears_of {s : State} {heard : List Byte} {opens : Bool} {j : Judgment} (h : hearsAs s heard opens j = true) :
    Hears s heard opens j := by
  unfold hearsAs at h
  cases hh : s.bus.hearing with
  | none => simp [hh] at h
  | some x =>
    simp [hh] at h
    exact ⟨h.1.1, ⟨x, hh, h.2.1, h.2.2⟩, h.1.2⟩

/-- A MEMBER drives a burst, and what was heard is judged as said. -/
def drivesAs (s : State) (d : Driving) (heard : List Byte) (opens : Bool) (j : Judgment) : Bool :=
  s.isMember && s.bus.driving == some d &&
    match s.bus.hearing with
    | some h => h.opensRound == opens && judge s.image s.bus.position h.repeated heard == j
    | none => false

theorem drives_of {s : State} {d : Driving} {heard : List Byte} {opens : Bool} {j : Judgment}
    (h : drivesAs s d heard opens j = true) : Drives s d heard opens j := by
  unfold drivesAs at h
  cases hh : s.bus.hearing with
  | none => simp [hh] at h
  | some x =>
    simp [hh] at h
    exact ⟨h.1.1, ⟨x, hh, h.2.1, h.2.2⟩, h.1.2⟩

/-! ## Bursts of the small wall -/

/-- A MARK of station 3. -/
def markFields (f : Frame) (k : SettleKind) : MarkFields := { round := 6, settled := f, kind := k }

/-- A STATE of station 2, the source of stream 1. -/
def stateFields (d : Digest) (f : Frame) (o : Option Offer) : StateFields :=
  { digest := d, source := true, sink := false, settled := f, kind := .commit, ready := none, shown := none, offer := o }

/-- The last piece of row 2 of stream 1, a fill piece: 44 pixels. -/
def fillPiece (f : Frame) (index : Nat) : Piece :=
  { stream := 1, frame := f, row := 2, index := index, count := if index = 0 then 256 else 44, format := .narrow, fill := true,
    payload := [] }

/-- A REQUEST for the whole of stream 0. -/
def requestFields (f : Frame) (last : Nat) (ranges : List RowRange) : RequestFields :=
  { tag := 4, stream := 0, frame := f, firstColumn := 0, lastColumn := last, ranges := ranges }

/-- A STATUS for station 1, tag 0. -/
def statusFields (o : Outcome) : StatusFields := { requester := 1, tag := 0, outcome := o, frame := 8, sent := 1, gone := 1 }

/-- A repair entry for stream 1. -/
def entry (st : EntryState) (attempts wait backoff : Nat) : RepairEntry :=
  { tag := 0, stream := 1, frame := 8, firstColumn := 5, lastColumn := 8, ranges := [⟨2, 1⟩], state := st, attempts := attempts,
    wait := wait, backoff := backoff, code := none }

/-- The repair list holds one entry. -/
def repairing (e : RepairEntry) (s : State) : State := s.setRequester { s.requester with entries := [e], lastTag := 0 }

/-- The responder holds a request in service with its first piece in the slot. -/
def serving (s : State) : State :=
  s.setResponder
    { queue := [⟨2, requestFields 8 4 [⟨0, 1⟩], 0, 0⟩], cursor := some ⟨0, 0, 0⟩,
      slot := some ⟨{ stream := 0, frame := 8, row := 0, index := 0, count := 5, format := .wide, fill := true, payload := [] },
        some ⟨2, 4⟩⟩,
      replies := [] }

/-! ## WellFormed: each check refuses an ill-formed term -/

theorem test_wellFormed_image_of_255_bytes : WellFormed (.configReadComplete (List.replicate 255 0)) = false := by
  decide +kernel

theorem test_wellFormed_burst_of_626_bytes : WellFormed (.mediumFault (List.replicate 626 0)) = false := by
  decide +kernel

theorem test_wellFormed_arrival_named_twice :
    WellFormed (.burstTaken [] { orders with round := [.settle, .ageing, .settle] }) = false ∧
      WellFormed (.burstTaken [] { orders with state := [.record, .record] }) = false := by decide

theorem test_wellFormed_known_code : WellFormed (.unknownCommand 5) = false := by decide

theorem test_wellFormed_accepts :
    WellFormed (.burstTaken (List.replicate 625 0) { orders with round := [.settle, .ageing] }) = true ∧
      WellFormed (.unknownCommand 6) = true ∧ WellFormed (.unknownCommand 0) = true := by decide +kernel

/-! ## The check computation and the burst layouts (R170 to R172) -/

/-- The check value that R170 gives for the nine bytes "123456789". -/
theorem test_check_word :
    checkWord [0x31, 0x32, 0x33, 0x34, 0x35, 0x36, 0x37, 0x38, 0x39] = 0xFC891918 := by decide +kernel

/-- A MARK written out byte by byte: class 0 and sender 3, kind 1, round number, settled frame, kind COMMIT (R171). -/
theorem test_mark_bytes :
    (encodeBurst ⟨3, .mark (markFields 8 .commit)⟩).take 7 = [0x03, 0x01, 0x00, 0x06, 0x00, 0x08, 0x01] := by decide +kernel

/-- No row of the table has bits. -/
theorem test_no_word_spells_a_command : decodeTableWord 8 1 = none ∧ State.reset.withFetchWord 8 1 = State.reset :=
  ⟨rfl, rfl⟩

/-! ## The commands on the small wall -/

theorem test_reset : exec .reset (member .mark) = .next (State.afterReset 2 true []) := rfl

theorem test_resetRelease : (after .resetRelease (State.afterReset 2 true [])).resetAsserted = false := by decide

theorem test_configReadComplete_empty_memory :
    (after (.configReadComplete (List.replicate 256 0xFF)) State.reset).station.fault = .imageCheck ∧
      (after (.configReadComplete (List.replicate 256 0xFF)) State.reset).port.events = [⟨.isolated, 0, 0, 1⟩] := by
  decide +kernel

theorem test_startUpClearComplete :
    (after .startUpClearComplete (setClear .clearingBoth (configured image State.reset))).station.state = .listen ∧
      (after .startUpClearComplete (setClear .clearingBoth (configured image State.reset))).scan =
        ⟨some 100, .row 0, false⟩ := by decide +kernel

theorem test_markTimerExpiry_sends_mark :
    (after .markTimerExpiry (member .tail)).bus.driving =
      some ⟨.mark ⟨6, 7, .commit⟩ false, true, encodeBurst ⟨1, .mark ⟨6, 7, .commit⟩⟩⟩ := by decide +kernel

theorem test_markTimerExpiry_counts :
    (after .markTimerExpiry ((listener false .tail).setStation ⟨.listen, .noFault, 2, 0⟩)).station.silentExpiries = 3 := by
  decide +kernel

theorem test_joinAlone :
    (after .joinAlone (listener false .tail)).settle = ⟨0, .start, 0, none⟩ ∧
      (after .joinAlone (listener false .tail)).port.events =
        [⟨.memberAbsent, 0, 0, 2⟩, ⟨.memberAbsent, 0, 0, 3⟩, ⟨.joined, 0, 0, 1⟩] := by decide +kernel

theorem test_burstStart_opens_round :
    (after .burstStart (member .tail)).bus.position = .mark ∧
      (after .burstStart (member .tail)).bus.hearing = some ⟨true, false⟩ := by decide

theorem test_positionEnd_sends_state :
    (after (.positionEnd [] orders) (member (.numbered 1))).bus.position = .numbered 2 ∧
      (after (.positionEnd [] orders) (member (.numbered 1))).bus.driving.map (fun d => d.item) = some .state := by
  decide +kernel

theorem test_burstTaken_mark_abandons :
    (after (.burstTaken (encodeBurst ⟨3, .mark (markFields 8 .abandon)⟩) orders) (hearing true (member .mark))).settle =
        ⟨8, .abandon, 0, none⟩ ∧
      (after (.burstTaken (encodeBurst ⟨3, .mark (markFields 8 .abandon)⟩) orders)
        (hearing true (member .mark))).banks.clear = .clearingBack := by decide +kernel

theorem test_burstTaken_state_presents :
    ((after (.burstTaken (encodeBurst ⟨2, .state (stateFields 0xABCD 7 (some ⟨1, some 8, true⟩))⟩) orders)
      (hearing false (member (.numbered 3)))).member 2).record =
        some ⟨7, .commit, none, none, some ⟨1, some 8, true⟩⟩ := by decide +kernel

theorem test_mediumFault :
    (after (.mediumFault [0]) (hearing false (driving .status true ⟨1, .status (statusFields .gone)⟩
      ((member (.numbered 130)).setBus { (member (.numbered 130)).bus with consecutiveFaults := 6 })))).station.state =
        .member ∧
      (after (.mediumFault [0x3F]) (hearing false (driving .status true ⟨1, .status (statusFields .gone)⟩
        ((member (.numbered 130)).setBus { (member (.numbered 130)).bus with consecutiveFaults := 7 })))).station.fault =
        .mediumFault := by decide +kernel

theorem test_duplicateNumber :
    (after (.duplicateNumber []) (hearing false (driving .state false ⟨1, .state (stateFields 0xABCD 7 none)⟩
      ((member (.numbered 2)).setBus { (member (.numbered 2)).bus with collisions := 1 })))).station.fault =
        .duplicateNumber := by decide +kernel

theorem test_memberAbsent :
    ((after (.memberAbsent [1] orders) (hearing true (member .mark))).member 3).status = .absent ∧
      ((after (.memberAbsent [1] orders) (hearing true (member .mark))).member 2).status = .present := by decide +kernel

theorem test_joinByCount :
    (after (.joinByCount [1] orders) (hearing true (listener true .mark))).station.state = .member ∧
      (after (.joinByCount [1] orders) (hearing true (listener true .mark))).settle = ⟨7, .commit, 0, none⟩ := by
  decide +kernel

theorem test_frameStart :
    (after .frameStart (capturing .waiting .skipped (member .mark))).capture.state = .capturing := by decide +kernel

theorem test_frameStart_skips :
    (after .frameStart (member .mark)).counter .inputFramesSkipped = 1 ∧
      (after .frameStart (member .mark)).port.events = [⟨.inputLive, 5, 8, 0⟩] := by decide +kernel

theorem test_rowCompletion_short_row :
    (after (.rowCompletion [0xFFFF, 0xFFFF]) (capturing .capturing .taken (member .mark))).publishQueue =
      [⟨0, 8, 0, 0, 5, .wide, false, [0xFF, 0xFF, 0xFF, 0xFF, 0x12, 0x34, 0x12, 0x34, 0x12, 0x34]⟩] := by decide +kernel

theorem test_inputLost_fills :
    (after (.inputLost [1] orders) (hearing true ((capturing .capturing .taken (member .mark)).setCapture
      { (capturing .capturing .taken (member .mark)).capture with silence := 1 }))).counter .fillPieces = 3 := by
  decide +kernel

theorem test_placementComplete :
    (after .placementComplete (((member .mark).setLanding [fillPiece 8 0]).setEngine .placing)).landing = [] := by
  decide +kernel

theorem test_bankClearComplete :
    (after .bankClearComplete (setClear .clearingBack (member .mark))).banks.clear = .idle := by decide +kernel

theorem test_scanStart_swaps :
    (after .scanStart ((member .mark).setBanks { (member .mark).banks with swapPending := some 8 })).banks.front = .bank1 ∧
      (after .scanStart ((member .mark).setBanks { (member .mark).banks with swapPending := some 8 })).banks.shown =
        some 8 := by decide +kernel

theorem test_scanEnd : (after .scanEnd (member .mark)).scan.position = .idle := by decide

theorem test_backoffEnd :
    (after (.backoffEnd [1] orders) (hearing true (repairing (entry .sent 1 3 1) (member .mark)))).requester.entries =
      [entry .composed 2 0 0] := by decide +kernel

theorem test_repairTimeout :
    (after (.repairTimeout [1] orders) (hearing true (repairing (entry .sent 1 5 0) (member .mark)))).requester.entries =
      [entry .composed 2 0 0] := by decide +kernel

theorem test_readSummary :
    ((after .readSummary (member .mark)).port.transaction.map (fun t => t.response)).getD [] =
      [2, 0, 1, 0, 7, 1, 0, 3, 0xB4, 0, 7, 0, 0, 0, 0, 0, 0, 0, 0, 0, 0, 0, 0, 5] := by decide +kernel

theorem test_readMembers :
    (((after .readMembers (member .mark)).port.transaction.map (fun t => t.response)).getD []).length = 416 := by
  decide +kernel

theorem test_readCounters :
    (((after .readCounters (raise .commitsTaken 258 (member .mark))).port.transaction.map (fun t => t.response)).getD
      []).take 8 = [0, 0, 0, 0, 0, 0, 1, 2] := by decide +kernel

theorem test_clearCounters :
    (after .clearCounters (raise .commitsTaken 258 (member .mark))).counter .commitsTaken = 0 := by decide +kernel

theorem test_readEvent_and_complete :
    (after .transactionComplete (after .readEvent (post .joined 7 0 (member .mark)))).port.events = [] ∧
      (after .transactionCutShort (after .readEvent (post .joined 7 0 (member .mark)))).port.events =
        [⟨.joined, 5, 7, 0⟩] := by decide +kernel

theorem test_unknownCommand : spdoByte (after (.unknownCommand 6) (member .mark)) 9 = some 0xFF := by decide +kernel

/-! ## Witnesses: for each statement's hypotheses, states and operands that meet them

A statement without hypotheses has none here. The number of clauses in a witness follows its statement. -/

/-- The image as the configuration memory holds it (R174): the small wall's, with the roles given. -/
def imageBytes (n : Nat) (roles : Byte) : List Byte :=
  let body : List Byte := [0x31, toByte n, roles] ++ toPair 200 ++ [2] ++ toPair 8 ++ [2] ++ toPair 8 ++ [8, 0] ++ toPair 1 ++
    toPair 0 ++ toPair 0x1234 ++ toPair 100 ++
    [0x81, 0x00, 0x00, 0x00, 0x00, 0x40, 0x02] ++ [0xA2, 0x00, 0x50, 0x00, 0x12, 0xB0, 0x02] ++ List.replicate 98 0 ++
    List.replicate 48 0 ++ List.replicate 48 1
  closed (body ++ List.replicate (252 - body.length) 0)

/-- Station 2's last STATE declared no offer. -/
def noOfferMembers : List MemberEntry :=
  members.set 2 { presentEntry true false 0 with record := some ⟨7, .commit, none, none, none⟩ }

/-- The station complete for frame 8. -/
def complete : State := (member .mark).setMembers noOfferMembers

/-- The same wall with station 1 a plain member. -/
def plain (p : Position) : State :=
  configured { image with sourceRole := false, sinkRole := false } (member p)

theorem witness_StepRunsFrontCommand :
    ((member .mark).setPending [.scanEnd, .scanStart]).pending = .scanEnd :: [.scanStart] := rfl

/-- For ReadSummaryAnswers, ReadMembersAnswers, CountersAreReadAndCleared and ReadEventReportsOldest. -/
theorem witness_ReadCommands :
    (member .mark).resetAsserted = false ∧ (member .mark).port.transaction = none ∧ (member .mark).members.length = 32 ∧
      (member .mark).port.counters.length = 22 ∧ (member .mark).port.events = [] ∧
      (post .joined 7 0 (member .mark)).port.events = ⟨.joined, 5, 7, 0⟩ :: [] ∧
      ((complete.member 2).record.isSome ∧ ((member .mark).member 2).record = none) ∧
      ((complete.member 2).record.bind (fun r => r.offer)) = none ∧
      (((after (.burstTaken (encodeBurst ⟨2, .state (stateFields 0xABCD 7 (some ⟨1, some 8, true⟩))⟩) orders)
        (hearing false (member (.numbered 3)))).member 2).record.bind (fun r => r.offer)) = some ⟨1, some 8, true⟩ := by
  decide +kernel

theorem witness_PortTakesCommandsAfterRelease :
    (State.afterReset 0 true []).resetAsserted = true ∧ (after .readEvent (member .mark)).port.transaction ≠ none ∧
      (0x00 : Byte) ∉ [0x01#8, 0x02#8, 0x03#8, 0x04#8, 0x05#8] ∧ (0x06 : Byte) ∉ [0x01#8, 0x02#8, 0x03#8, 0x04#8, 0x05#8] := by
  decide +kernel

theorem witness_TransactionEndRemovesReported :
    (member .mark).port.transaction = none ∧
      (after .clearCounters (member .mark)).port.transaction = some ⟨[], 0, none⟩ ∧
      (after .readEvent (member .mark)).port.transaction = some ⟨[0, 0, 0, 0, 0, 0, 0], 0, some (false, 0)⟩ ∧
      (after .readEvent (post .joined 7 0 (member .mark))).port.transaction =
        some ⟨[1, 0, 5, 0, 7, 0, 0], 0, some (true, 0)⟩ := by decide +kernel

theorem witness_PortCommandsStayInPort :
    isPortCommand .transactionCutShort = true ∧ exec .transactionCutShort (member .mark) = .next (member .mark) ∧
      isPortCommand .scanEnd = false := ⟨rfl, rfl, rfl⟩

theorem witness_CountersSaturateAndEventsAppend :
    (member .mark).port.counters.length = 22 ∧ (member .mark).port.events.length < 32 ∧
      32 ≤ ((member .mark).setPort { (member .mark).port with
        events := List.replicate 32 ⟨.joined, 0, 0, 0⟩ }).port.events.length := by decide +kernel

theorem witness_PiecesCutTheRow : 1 ≤ (StreamEntry.mk true 0 1 0 0 1 3).width ∧ 1 ≤ (StreamEntry.mk true 0 1 0 0 4096 3).width := by
  decide

theorem witness_PlanListsPiecesInTile :
    1 ≤ image.tileWidth ∧ ∀ k, (image.stream k).valid = true → 1 ≤ (image.stream k).width := by
  refine ⟨by decide, fun k h => ?_⟩
  match k, h with
  | 0, _ => decide
  | 1, _ => decide
  | k + 2, h => exact absurd h (by simp [Image.stream, image, streamTable, StreamEntry.unused])

theorem witness_NarrowPixelsAreExpanded :
    (15 : Nat) < 16 ∧ (Piece.mk 1 8 2 0 1 .narrow false [0, 0]).fill = false ∧
      (Piece.mk 1 8 2 0 1 .narrow false [0, 0]).format = .narrow ∧ (Piece.mk 0 8 2 0 1 .wide false [0, 0]).format = .wide := by
  decide

theorem witness_PayloadsReadBack : (0x50 : Byte).toNat / 16 = (0x5F : Byte).toNat / 16 := by decide

theorem witness_OrientationIsOneToOne :
    7 < image.tileWidth ∧ 7 < image.tileHeight ∧ 7 < image.panelWidth ∧ 7 < image.panelHeight ∧ image.swapAxes = false ∧
      { image with swapAxes := true }.swapAxes = true := by decide

theorem witness_ImageCheckFindsNoImage :
    (List.replicate 256 (0xFF : Byte)).length = 256 ∧ (imageBytes 1 0xC0).length = 256 ∧
      readFault (List.replicate 256 0xFF) = some .imageCheck ∧ readFault (imageBytes 32 0xC0) ≠ some .imageCheck := by
  decide +kernel

/-- The image of station 32 fails the first of the seven checks. -/
theorem witness_FirstFailingCheckGivesCode :
    imageChecks = [] ++ (FaultCode.range, FieldsInRange) :: imageChecks.tail ∧
      ¬ FieldsInRange (parseImage (imageBytes 32 0xC0)) :=
  ⟨rfl, fun h => absurd h.1 (by decide +kernel)⟩

theorem witness_AcceptedImagesAreSound : readFault (imageBytes 1 0xC0) = none := by decide +kernel

theorem witness_ConfigFaultIsolates :
    State.reset.station.state = .loading ∧ State.reset.loader.reading = true ∧
      readFault (imageBytes 32 0xC0) = some .range := by decide +kernel

theorem witness_AcceptedImageStartsStation :
    readFault (imageBytes 1 0xC0) = none ∧ readFault (imageBytes 3 0x00) = none ∧
      (parseImage (imageBytes 1 0xC0)).sinkRole = true ∧ (parseImage (imageBytes 3 0x00)).sinkRole = false :=
  ⟨witness_AcceptedImagesAreSound, by decide +kernel, by decide +kernel, by decide +kernel⟩

theorem witness_StartUpClearEntersListen :
    (setClear .clearingBoth (configured image State.reset)).station.state = .loading ∧
      (setClear .clearingBoth (configured image State.reset)).banks.clear = .clearingBoth ∧
      (setClear .clearingBoth (configured image State.reset)).banks.swapPending = none := by decide +kernel

theorem witness_BurstsReadBack :
    Burst.Sendable ⟨31, .mark (markFields 8 .commit)⟩ image ∧
      Burst.Sendable ⟨2, .state (stateFields 0xABCD 7 (some ⟨15, some 8, true⟩))⟩ image ∧
      Burst.Sendable ⟨2, .state (stateFields 0xABCD 7 (some ⟨1, none, false⟩))⟩ image ∧
      Burst.Sendable ⟨2, .segment ⟨fillPiece 8 1, some ⟨31, 7⟩⟩⟩ image ∧
      Burst.Sendable ⟨3, .request (requestFields 8 4 [⟨0, 1⟩, ⟨2, 1⟩])⟩ image ∧
      Burst.Sendable ⟨2, .status (statusFields .partly)⟩ image := by
  refine ⟨⟨by decide, trivial⟩, ⟨by decide, ?_⟩, ⟨by decide, ?_⟩, ⟨by decide, ?_⟩, ⟨by decide, by decide⟩, ⟨by decide, by decide⟩⟩
  · exact ⟨fun _ => ⟨rfl, rfl⟩, rfl, fun o h => by cases h; decide⟩
  · exact ⟨fun _ => ⟨rfl, rfl⟩, rfl, fun o h => by cases h; decide⟩
  · exact ⟨by decide, by decide, by decide, by decide, by decide, by decide, by decide, by decide, by decide,
      fun r h => by cases h; decide⟩

theorem witness_ArbitrationIsByFieldValue :
    (0x20 : Byte).toNat < (0x21 : Byte).toNat ∧ (0x20 : Byte) ≠ 0x21 ∧ (Burst.mk 31 (.mark (markFields 8 .commit))).sender < 32 ∧
      ¬ ([0x20, 0x01] : List Byte) <+: [0x20, 0x02] ∧ ¬ ([0x20, 0x01] : List Byte) <+: [0x20] := by decide

theorem witness_BurstStartByPosition :
    State.reset.station.state = .loading ∧ (listener false .tail).station.state = .listen ∧
      (listener false .tail).bus.aligned = false ∧
      (driving .status true ⟨1, .status (statusFields .gone)⟩ (member .mark)).bus.driving ≠ none ∧
      (listener true .tail).bus.aligned = true ∧ (member .tail).station.state = .member ∧
      (member .tail).bus.driving = none ∧ (member .mark).bus.hearing = none ∧
      (hearing true (member .mark)).bus.hearing = some ⟨true, false⟩ ∧ (hearing true (member .mark)).bus.driving = none := by
  decide +kernel

theorem witness_PositionEndAdvancesCounter :
    (member (.numbered 160)).onTheBus = true ∧ (member (.numbered 160)).bus.hearing = none ∧
      (listener true .mark).onTheBus = true ∧ (listener true .mark).isMember = false ∧
      (listener false .tail).onTheBus = false ∧ (hearing false (member (.numbered 1))).onTheBus = true ∧
      (hearing false (member (.numbered 1))).bus.hearing = some ⟨false, false⟩ := by decide +kernel

/-- For the bursts cut off that open the MARK position or are driven: the limit reached, and not reached. -/
theorem witness_CutOffBurstActsAsFailedCheck :
    Hears (hearing true (member .mark)) [1] true .checkFailure ∧ (member .mark).bus.position ≠ .tail ∧
      (∀ n ∈ [0, 7], Drives ((hearing false (driving .fresh false ⟨1, .segment ⟨fillPiece 8 0, none⟩⟩
          (member (.numbered 33)))).setBus
          { (hearing false (driving .fresh false ⟨1, .segment ⟨fillPiece 8 0, none⟩⟩ (member (.numbered 33)))).bus with
            consecutiveFaults := n })
        ⟨.fresh, false, encodeBurst ⟨1, .segment ⟨fillPiece 8 0, none⟩⟩⟩ [1] false .checkFailure) := by
  refine ⟨hears_of (by decide +kernel), by decide, fun n hn => drives_of ?_⟩
  simp only [List.mem_cons, List.not_mem_nil, or_false] at hn
  rcases hn with rfl | rfl <;> decide +kernel

theorem witness_StateSentInOwnPosition :
    (member .mark).isMember = true ∧ (member .mark).bus.position.next = .numbered 1 ∧
      (member (.numbered 1)).bus.position.next = .numbered (image.stationNumber + 1) ∧
      (member (.numbered 31)).bus.position.next = .numbered 32 := by decide +kernel

/-- Stream 1 by the rows of the table of R125: no record, an offer of frame 8, of another frame, and a publisher that is ABSENT; and
stream 0, the own one, without an offer. -/
theorem test_streamStanding :
    streamStanding (member .mark) 8 1 = .unknown ∧
      (∀ f ∈ [(8, StreamStanding.awaited), (9, .unknown)],
        streamStanding ((member .mark).setMember 2 { presentEntry true false 0 with
          record := some ⟨7, .commit, none, none, some ⟨1, some (BitVec.ofNat 16 f.1), true⟩⟩ }) 8 1 = f.2) ∧
      streamStanding ((member .mark).setMember 2 { presentEntry true false 0 with status := .absent }) 8 1 = .treatedAsNone ∧
      streamStanding (member .mark) 8 0 = .treatedAsNone := by decide +kernel

theorem witness_SegmentSentInOwnStreamPosition :
    image.mapEntry (32 - 32) = some 0 ∧ image.ownStream = some 0 ∧ image.mapEntry (127 - 32) = some 1 ∧
      (serving (member (.numbered 32))).responder.slot.isSome = true ∧ (member (.numbered 32)).publishQueue = [] ∧
      ((member (.numbered 32)).setPublishQueue [fillPiece 8 0]).publishQueue = fillPiece 8 0 :: [] := by decide +kernel

theorem witness_LowestClassOfferedInOpenPosition :
    ((member (.numbered 128)).setResponder
      { Responder.reset with replies := [statusFields .gone] }).responder.replies = statusFields .gone :: [] ∧
      (repairing (entry .composed 1 0 0) (member (.numbered 159))).requester.entries.find? (fun e => e.state == .composed) =
        some (entry .composed 1 0 0) ∧
      (serving (member (.numbered 159))).responder.slot.isSome = true ∧
      (member (.numbered 159)).requester.entries = [] ∧ (member (.numbered 159)).responder.slot = none := by decide +kernel

theorem witness_DiscardedBurstsAreCounted :
    Hears (hearing false (member (.numbered 3))) [1] false .checkFailure ∧
      Hears (hearing false (member (.numbered 3))) (encodeBurst ⟨3, .mark (markFields 8 .commit)⟩) false .misplaced ∧
      Hears (hearing false (member (.numbered 3))) (closed [0x82, 0x02]) false .malformed :=
  ⟨hears_of (by decide +kernel), hears_of (by decide +kernel), hears_of (by decide +kernel)⟩

theorem witness_ListeningStationTakesStatesOnly :
    Hears (hearing false (listener true (.numbered 81))) (encodeBurst ⟨2, .segment ⟨fillPiece 8 1, none⟩⟩) false
        (.valid ⟨2, .segment ⟨fillPiece 8 1, none⟩⟩) ∧
      Hears (hearing false (listener true (.numbered 129))) (encodeBurst ⟨3, .request (requestFields 8 4 [⟨0, 1⟩])⟩) false
        (.valid ⟨3, .request (requestFields 8 4 [⟨0, 1⟩])⟩) ∧
      Hears (hearing false (listener true (.numbered 160))) (encodeBurst ⟨2, .status (statusFields .gone)⟩) false
        (.valid ⟨2, .status (statusFields .gone)⟩) ∧
      Hears (hearing false (listener true (.numbered 3))) (encodeBurst ⟨2, .state (stateFields 0xABCD 7 none)⟩) false
        (.malformed) ∧
      Hears (hearing false (listener true (.numbered 3)))
        (encodeBurst ⟨2, .state (stateFields 0xABCD 7 (some ⟨1, none, false⟩))⟩) false
        (.valid ⟨2, .state (stateFields 0xABCD 7 (some ⟨1, none, false⟩))⟩) ∧
      Hears (hearing false (listener true (.numbered 2)))
        (encodeBurst ⟨1, .state (stateFields 0xABCD 7 (some ⟨1, none, false⟩))⟩) false
        (.valid ⟨1, .state (stateFields 0xABCD 7 (some ⟨1, none, false⟩))⟩) ∧
      Hears (hearing false (listener true .mark)) (encodeBurst ⟨3, .mark (markFields 8 .commit)⟩) false
        (.valid ⟨3, .mark (markFields 8 .commit)⟩) :=
  ⟨hears_of (by decide +kernel), hears_of (by decide +kernel), hears_of (by decide +kernel), hears_of (by decide +kernel),
    hears_of (by decide +kernel), hears_of (by decide +kernel), hears_of (by decide +kernel)⟩

/-- At a numbered position, with a burst being heard. -/
def atPos (k : Nat) : State := hearing false (member (.numbered k))

/-- In the MARK position, with the burst that opened it being heard. -/
def atMark : State := hearing true (member .mark)

theorem witness_LossAndFaultAreReception :
    Drives (hearing false (driving .status true ⟨1, .status (statusFields .gone)⟩ (member (.numbered 130))))
        ⟨.status, true, encodeBurst ⟨1, .status (statusFields .gone)⟩⟩ (encodeBurst ⟨0, .status (statusFields .gone)⟩) false
        (.valid ⟨0, .status (statusFields .gone)⟩) ∧
      readback true (encodeBurst ⟨1, .status (statusFields .gone)⟩) (encodeBurst ⟨0, .status (statusFields .gone)⟩) =
        .arbitrationLost ∧
      Drives (hearing false (driving .status true ⟨1, .status (statusFields .gone)⟩ (member (.numbered 130))))
        ⟨.status, true, encodeBurst ⟨1, .status (statusFields .gone)⟩⟩ [0x3F] false .checkFailure ∧
      readback true (encodeBurst ⟨1, .status (statusFields .gone)⟩) [0x3F] = .fault ∧
      Drives (hearing false (driving .state false ⟨1, .state (stateFields 0xABCD 7 none)⟩ (member (.numbered 2))))
        ⟨.state, false, encodeBurst ⟨1, .state (stateFields 0xABCD 7 none)⟩⟩ [] false .checkFailure ∧
      readback false (encodeBurst ⟨1, .state (stateFields 0xABCD 7 none)⟩) [] = .fault :=
  ⟨drives_of (by decide +kernel), by decide +kernel, drives_of (by decide +kernel), by decide +kernel,
    drives_of (by decide +kernel), by decide +kernel⟩

theorem witness_FaultLimitsIsolate :
    Drives ((hearing false (driving .status true ⟨1, .status (statusFields .gone)⟩ (member (.numbered 130)))).setBus
        { (hearing false (driving .status true ⟨1, .status (statusFields .gone)⟩ (member (.numbered 130)))).bus with
          consecutiveFaults := 7 })
        ⟨.status, true, encodeBurst ⟨1, .status (statusFields .gone)⟩⟩ [0x3F] false .checkFailure ∧
      Drives ((hearing false (driving .state false ⟨1, .state (stateFields 0xABCD 7 none)⟩ (member (.numbered 2)))).setBus
        { (hearing false (driving .state false ⟨1, .state (stateFields 0xABCD 7 none)⟩ (member (.numbered 2)))).bus with
          collisions := 1 })
        ⟨.state, false, encodeBurst ⟨1, .state (stateFields 0xABCD 7 none)⟩⟩ [] false .checkFailure ∧
      (member .mark).bus.driving = none ∧ (member .mark).bus.consecutiveFaults < 7 ∧ (member .mark).bus.collisions = 0 :=
  ⟨drives_of (by decide +kernel), drives_of (by decide +kernel), by decide +kernel⟩

/-- The station's own last piece of row 0. -/
def ownPiece : Piece :=
  { stream := 0, frame := 8, row := 0, index := 0, count := 5, format := .wide, fill := true, payload := [] }

theorem witness_PassedItemsLeave :
    (∀ x ∈ [(SentItem.fresh, Burst.mk 1 (.segment ⟨ownPiece, none⟩), 33, 3),
        (.repair, ⟨1, .segment ⟨ownPiece, some ⟨2, 4⟩⟩⟩, 33, 3), (.request 0, ⟨1, .request (requestFields 8 4 [⟨0, 1⟩])⟩, 130, 4),
        (.status, ⟨1, .status (statusFields .gone)⟩, 130, 5)],
      Drives (hearing false (driving x.1 false x.2.1 (serving (member (.numbered x.2.2.1))))) ⟨x.1, false, encodeBurst x.2.1⟩
        (encodeBurst x.2.1) false (.valid x.2.1) ∧
      readback false (encodeBurst x.2.1) (encodeBurst x.2.1) = .clean ∧ kindBits (encodeBurst x.2.1) = x.2.2.2) ∧
    (∀ v ∈ [true, false],
      Drives (hearing true (driving (.mark (markFields 8 .commit) v) true ⟨1, .mark (markFields 8 .commit)⟩ (member .mark)))
        ⟨.mark (markFields 8 .commit) v, true, encodeBurst ⟨1, .mark (markFields 8 .commit)⟩⟩
        (encodeBurst ⟨1, .mark (markFields 8 .commit)⟩) true (.valid ⟨1, .mark (markFields 8 .commit)⟩)) ∧
    (serving (member .mark)).responder.queue = ⟨2, requestFields 8 4 [⟨0, 1⟩], 0, 0⟩ :: [] ∧
    (serving (member .mark)).responder.cursor = some ⟨0, 0, 0⟩ ∧
    walk [] (piecesAfter ⟨0, 0, 0⟩ (requestPieces (ownEntry (member .mark)) (requestFields 8 4 [⟨0, 1⟩]))) 0 = .exhausted 0 ∧
    walk [⟨1, 0, 5, true, []⟩]
      (piecesAfter ⟨0, 0, 0⟩ (requestPieces (ownEntry (member .mark)) (requestFields 8 4 [⟨0, 2⟩]))) 0 =
        .found ⟨0, 1, 0⟩ ⟨1, 0, 5, true, []⟩ 0 := by
  refine ⟨fun x hx => ?_, fun v hv => drives_of ?_, rfl, rfl, by decide +kernel, by decide +kernel⟩
  · simp only [List.mem_cons, List.not_mem_nil, or_false] at hx
    rcases hx with rfl | rfl | rfl | rfl <;> exact ⟨drives_of (by decide +kernel), by decide +kernel, by decide +kernel⟩
  · simp only [List.mem_cons, List.not_mem_nil, or_false] at hv
    rcases hv with rfl | rfl <;> decide +kernel

/-- In HOLDING, with the last fresh piece being sent. -/
def lastFresh : State :=
  hearing false (driving .fresh false ⟨1, .segment ⟨ownPiece, none⟩⟩
    ((capturing .holding .taken (member (.numbered 33))).setPublishQueue [ownPiece]))

/-- The published flag is set by the last fresh piece, and the own stream's mark with it. -/
theorem witness_LastFreshPieceSetsPublished :
    Drives lastFresh ⟨.fresh, false, encodeBurst ⟨1, .segment ⟨ownPiece, none⟩⟩⟩ (encodeBurst ⟨1, .segment ⟨ownPiece, none⟩⟩)
        false (.valid ⟨1, .segment ⟨ownPiece, none⟩⟩) ∧
      lastFresh.capture.offer ≠ none ∧ lastFresh.publishQueue.length ≤ 1 ∧ lastFresh.capture.published = false ∧
      lastFresh.image.ownStream = some 0 ∧ lastFresh.image.contributes 0 = true ∧
      (after (.burstTaken (encodeBurst ⟨1, .segment ⟨ownPiece, none⟩⟩) orders) lastFresh).capture.published = true ∧
      (after (.burstTaken (encodeBurst ⟨1, .segment ⟨ownPiece, none⟩⟩) orders) lastFresh).requester.published.getD 0 false =
        true :=
  ⟨drives_of (by decide +kernel), by decide +kernel⟩

/-- The request in service ends with its one piece sent and the reply queue full; the one behind it finds a piece in the ring. -/
def servingTwo : State :=
  ((serving (member (.numbered 33))).setResponder
    { (serving (member (.numbered 33))).responder with
      queue := [⟨2, requestFields 8 4 [⟨0, 1⟩], 0, 0⟩, ⟨3, requestFields 8 4 [⟨1, 1⟩], 0, 0⟩],
      replies := List.replicate 4 (statusFields .gone) }).setRing [⟨1, 0, 5, true, []⟩]

theorem witness_ServiceEndsWithFullReplies :
    servingTwo.responder.queue = ⟨2, requestFields 8 4 [⟨0, 1⟩], 0, 0⟩ :: [⟨3, requestFields 8 4 [⟨1, 1⟩], 0, 0⟩] ∧
      walk servingTwo.ring (piecesAfter ⟨0, 0, 0⟩ (requestPieces (ownEntry servingTwo) (requestFields 8 4 [⟨0, 1⟩]))) 0 =
        .exhausted 0 ∧
      ¬ servingTwo.responder.replies.length < 4 ∧
      (slotPassed servingTwo).counter .statusesDropped = 1 ∧
      (slotPassed servingTwo).responder.queue = [⟨3, requestFields 8 4 [⟨1, 1⟩], 0, 0⟩] ∧
      (slotPassed servingTwo).responder.cursor = some ⟨0, 1, 0⟩ := by decide +kernel

theorem witness_FrameComparisonDecidesSettle :
    forward 7 7 = 0 ∧ forward 7 8 = 1 ∧ forward 7 9 = 2 ∧ forward 7 32774 = 32767 ∧ forward 7 32775 = 32768 ∧
      forward 7 32776 = 32769 ∧ forward 65535 0 = 1 ∧ (stateFields 0xABCD 7 none).digest = (member .mark).digest ∧
      2 ≠ (member .mark).image.stationNumber := by decide +kernel

theorem witness_RoundStartTakesMark :
    atMark.isMember = true ∧ atMark.port.counters.length = 22 ∧
      (∀ f ∈ [7, 8, 9, 32774, 32775], ∀ k ∈ [SettleKind.commit, .abandon, .start],
        Hears atMark (encodeBurst ⟨3, .mark (markFields (BitVec.ofNat 16 f) k)⟩) true (.valid ⟨3, .mark (markFields (BitVec.ofNat 16 f) k)⟩)) ∧
      Hears atMark [1] true .checkFailure ∧
      Hears atMark (encodeBurst ⟨2, .status (statusFields .gone)⟩) true .misplaced ∧
      Hears atMark (closed [0x03, 0x01]) true .malformed ∧
      Hears (hearing false (member .mark)) (encodeBurst ⟨3, .mark (markFields 8 .commit)⟩) false
        (.valid ⟨3, .mark (markFields 8 .commit)⟩) := by
  refine ⟨by decide, by decide, fun f hf k hk => hears_of ?_, hears_of (by decide +kernel), hears_of (by decide +kernel),
    hears_of (by decide +kernel), hears_of (by decide +kernel)⟩
  exact (by decide +kernel : ∀ f ∈ [7, 8, 9, 32774, 32775], ∀ k ∈ [SettleKind.commit, .abandon, .start],
    hearsAs atMark (encodeBurst ⟨3, .mark (markFields (BitVec.ofNat 16 f) k)⟩) true (.valid ⟨3, .mark (markFields (BitVec.ofNat 16 f) k)⟩) = true) f hf k hk

theorem witness_MarkTimerExpirySendsMark :
    State.reset.roundTimer.markTimer = none ∧ (listener false .tail).station.state = .listen ∧
      (listener false .tail).roundTimer.markTimer = some 2005 ∧ 3 ≤ (listener false .tail).station.silentExpiries ∧
      ((listener false .tail).setStation ⟨.listen, .noFault, 2, 0⟩).station.silentExpiries < 3 ∧
      atMark.station.state = .member ∧ atMark.bus.hearing ≠ none ∧ atMark.roundTimer.markTimer = some 2005 ∧
      (member .tail).bus.hearing = none ∧ (member .tail).bus.position = .tail ∧ (member .tail).settle.openAge < 8 ∧
      image.deadline = 8 ∧ completeFor complete 8 = true ∧ completeFor (member .tail) 8 = false := by decide +kernel

theorem witness_SettleReachesEveryBlock :
    (member .mark).image.sourceRole = true ∧ (plain .mark).image.sourceRole = false ∧ (plain .mark).image.sinkRole = false ∧
      (member .mark).banks.swapPending = none ∧ completeFor complete 8 = true ∧ completeFor (member .mark) 8 = false ∧
      ((member .mark).setBanks { (member .mark).banks with swapPending := some 7 }).banks.swapPending = some 7 ∧
      (member .mark).port.counters.length = 22 ∧ (member .mark).port.events.length < 32 ∧ complete.banks.swapPending = none ∧
      (member .mark).coverage.openFor = some ((member .mark).settle.frame + 1) := by decide +kernel

theorem witness_StateReachesTableAndSettle :
    (atPos 3).isMember = true ∧ (atPos 3).members.length = 32 ∧
      (∀ f ∈ [7, 8, 32774, 32775], ∀ d ∈ [0xABCD, 0x1111],
        Hears (atPos 3) (encodeBurst ⟨2, .state (stateFields (BitVec.ofNat 16 d) (BitVec.ofNat 16 f) (some ⟨1, some 8, true⟩))⟩) false
          (.valid ⟨2, .state (stateFields (BitVec.ofNat 16 d) (BitVec.ofNat 16 f) (some ⟨1, some 8, true⟩))⟩)) ∧
      Hears (atPos 4) (encodeBurst ⟨3, .state { stateFields 0xABCD 7 none with source := false }⟩) false
        (.valid ⟨3, .state { stateFields 0xABCD 7 none with source := false }⟩) ∧
      Hears (atPos 2) (encodeBurst ⟨1, .state (stateFields 0xABCD 7 (some ⟨0, none, false⟩))⟩) false
        (.valid ⟨1, .state (stateFields 0xABCD 7 (some ⟨0, none, false⟩))⟩) ∧
      (atPos 3).image.contributes 1 = true ∧ ((atPos 3).image.stream 1).publisher = 2 := by
  refine ⟨by decide, by decide, fun f hf d hd => hears_of ?_, hears_of (by decide +kernel), hears_of (by decide +kernel),
    by decide +kernel⟩
  exact (by decide +kernel : ∀ f ∈ [7, 8, 32774, 32775], ∀ d ∈ [0xABCD, 0x1111],
    hearsAs (atPos 3) (encodeBurst ⟨2, .state (stateFields (BitVec.ofNat 16 d) (BitVec.ofNat 16 f) (some ⟨1, some 8, true⟩))⟩) false
      (.valid ⟨2, .state (stateFields (BitVec.ofNat 16 d) (BitVec.ofNat 16 f) (some ⟨1, some 8, true⟩))⟩) = true) f hf d hd

/-- Stream 1's publisher is PRESENT and has published, and its pieces have not come. -/
def wanting : State := (member .mark).setRequester { Requester.reset with published := (List.replicate 16 false).set 1 true }

theorem wanting_hasGap : HasGap wanting 1 2 := by
  have h : wanting.image.tileY ≤ 2 ∧ (wanting.coverage.rows.getD (2 - wanting.image.tileY) []).any
      (fun e => e.expected.stream == 1 && !e.claimed) = true := by decide +kernel
  obtain ⟨e, he, h'⟩ := List.any_eq_true.1 h.2
  exact ⟨h.1, e, he, by simpa using h'⟩

/-- For the composition of an entry: wanted for stream 1, not for stream 0, which is not published. -/
theorem witness_GapScanComposes : Wanted wanting 1 ∧ ¬ Wanted wanting 0 :=
  ⟨⟨by decide, by decide, ⟨2, wanting_hasGap⟩, by decide, by decide, by decide⟩,
    fun h => absurd h.published (by decide)⟩

theorem test_gapScan_composes :
    gaps image wanting.coverage 1 = [(0, [0]), (1, [0]), (2, [0])] ∧
      (gapScan wanting).requester.entries =
        [{ tag := 0, stream := 1, frame := 8, firstColumn := 5, lastColumn := 8, ranges := [⟨0, 3⟩], state := .composed,
           attempts := 1, wait := 0, backoff := 0, code := none }] := by decide +kernel

/-- Station 1 holds an offer and hears a burst in an open position, with a repair queue of so many requests of station 3. -/
def answering (n : Nat) : State :=
  (capturing .holding .taken (atPos 130)).setResponder
    { Responder.reset with
      queue := (List.range n).map (fun i => ⟨3, { requestFields 8 4 [⟨0, 1⟩] with tag := i }, 0, 0⟩) }

theorem witness_RequestIsTestedInOrder :
    (∀ k ∈ [3, 4], ∀ q ∈ [requestFields 8 4 [⟨0, 1⟩], requestFields 9 4 [⟨0, 1⟩], requestFields 8 5 [⟨0, 1⟩],
        requestFields 8 4 [⟨0, 0⟩], requestFields 8 4 [⟨2, 2⟩], requestFields 8 4 [⟨0, 2⟩, ⟨1, 1⟩],
        { requestFields 8 4 [⟨0, 1⟩] with stream := 1 }], ∀ n ∈ [0, 5, 8],
      Hears (answering n) (encodeBurst ⟨k, .request q⟩) false (.valid ⟨k, .request q⟩)) ∧
      ((answering 0).member 3).status = .present ∧ ((answering 0).member 4).status ≠ .present ∧
      (answering 0).capture.state ≠ .dormant ∧ (member .mark).capture.state = .dormant ∧
      (answering 0).image.ownStream = some 0 ∧ (answering 0).settle.frame + 1 = 8 ∧ (answering 0).responder.queue = [] ∧
      4 ≤ ((answering 0).setResponder
        { (answering 0).responder with replies := List.replicate 4 (statusFields .gone) }).responder.replies.length ∧
      (answering 5).responder.queue.length < 8 ∧ 8 ≤ (answering 8).responder.queue.length ∧
      (∃ r ∈ (answering 5).responder.queue, r.requester = 3 ∧ r.fields.tag = 4) ∧
      walk [] (requestPieces (ownEntry (answering 0)) (requestFields 8 4 [⟨0, 1⟩])) 0 = .exhausted 1 ∧
      walk [⟨0, 0, 5, true, []⟩] (requestPieces (ownEntry (answering 0)) (requestFields 8 4 [⟨0, 1⟩])) 0 =
        .found ⟨0, 0, 0⟩ ⟨0, 0, 5, true, []⟩ 0 := by
  refine ⟨fun k hk q hq n hn => hears_of ?_, by decide +kernel⟩
  exact (by decide +kernel : ∀ k ∈ [3, 4], ∀ q ∈ [requestFields 8 4 [⟨0, 1⟩], requestFields 9 4 [⟨0, 1⟩],
      requestFields 8 5 [⟨0, 1⟩], requestFields 8 4 [⟨0, 0⟩], requestFields 8 4 [⟨2, 2⟩], requestFields 8 4 [⟨0, 2⟩, ⟨1, 1⟩],
      { requestFields 8 4 [⟨0, 1⟩] with stream := 1 }], ∀ n ∈ [0, 5, 8],
    hearsAs (answering n) (encodeBurst ⟨k, .request q⟩) false (.valid ⟨k, .request q⟩) = true) k hk q hq n hn

theorem witness_SegmentMeetsItsFate :
    (∀ f ∈ [7, 8, 9, 32775, 32776], ∀ r ∈ [none, some (RepairMark.mk 1 0), some ⟨3, 0⟩],
      Hears (atPos 81) (encodeBurst ⟨2, .segment ⟨fillPiece (BitVec.ofNat 16 f) 0, r⟩⟩) false (.valid ⟨2, .segment ⟨fillPiece (BitVec.ofNat 16 f) 0, r⟩⟩)) ∧
      Hears (atPos 127) (encodeBurst ⟨2, .segment ⟨fillPiece 8 1, none⟩⟩) false (.valid ⟨2, .segment ⟨fillPiece 8 1, none⟩⟩) ∧
      coverageEntry image (atPos 127).coverage 1 2 1 = none ∧ image.contributes 1 = true ∧
      (coverageEntry image (atPos 81).coverage 1 2 0).map (fun e => e.claimed) = some false ∧
      (coverageEntry image ((atPos 81).coverage.claim image 1 2 0) 1 2 0).map (fun e => e.claimed) = some true ∧
      Hears (hearing false (plain (.numbered 81))) (encodeBurst ⟨2, .segment ⟨fillPiece 8 0, none⟩⟩) false
        (.valid ⟨2, .segment ⟨fillPiece 8 0, none⟩⟩) ∧
      (atPos 81).landing.length < 16 ∧ (atPos 81).coverage.outstanding.length = 16 := by
  refine ⟨fun f hf r hr => hears_of ?_, hears_of (by decide +kernel), by decide +kernel, by decide +kernel, by decide +kernel,
    by decide +kernel, hears_of (by decide +kernel), by decide +kernel⟩
  exact (by decide +kernel : ∀ f ∈ [7, 8, 9, 32775, 32776], ∀ r ∈ [none, some (RepairMark.mk 1 0), some ⟨3, 0⟩],
    hearsAs (atPos 81) (encodeBurst ⟨2, .segment ⟨fillPiece (BitVec.ofNat 16 f) 0, r⟩⟩) false (.valid ⟨2, .segment ⟨fillPiece (BitVec.ofNat 16 f) 0, r⟩⟩) = true)
    f hf r hr

/-- For a claim in a row of an entry: the entry that waits for row 2 alone, and the one that waits for rows 1 and 2. -/
theorem witness_ClaimClosesEntry :
    (∀ l ∈ [(2, 1), (1, 2)],
      Hears (repairing { entry .sent 1 0 0 with ranges := [⟨l.1, l.2⟩] } (atPos 81))
        (encodeBurst ⟨2, .segment ⟨fillPiece 8 0, none⟩⟩) false (.valid ⟨2, .segment ⟨fillPiece 8 0, none⟩⟩) ∧
      (after (.burstTaken (encodeBurst ⟨2, .segment ⟨fillPiece 8 0, none⟩⟩) orders)
        (repairing { entry .sent 1 0 0 with ranges := [⟨l.1, l.2⟩] } (atPos 81))).requester.entries.length = l.2 - 1) ∧
      (entry .sent 1 0 0).stream = (fillPiece 8 0).stream ∧ (entry .sent 1 0 0).state ≠ .closed := by
  refine ⟨fun l hl => ?_, by decide, by decide⟩
  simp only [List.mem_cons, List.not_mem_nil, or_false] at hl
  rcases hl with rfl | rfl <;> exact ⟨hears_of (by decide +kernel), by decide +kernel⟩

theorem witness_StatusClosesItsEntry :
    (∀ oc ∈ [Outcome.delivered, .partly, .gone, .malformed, .refused],
      ∀ e ∈ [entry .sent 1 0 0, entry .sent 3 0 0, entry .sent 1 0 2, entry .composed 2 0 0, entry .composed 1 0 0],
      Hears (repairing e (atPos 160)) (encodeBurst ⟨2, .status (statusFields oc)⟩) false
        (.valid ⟨2, .status (statusFields oc)⟩)) ∧
      (entry .sent 1 0 0).tag = 0 ∧ (entry .sent 1 0 0).frame = 8 ∧ ((atPos 160).image.stream 1).publisher = 2 ∧
      ((repairing (entry .sent 1 0 0) (atPos 160)).requester.entries.map (fun e => e.tag)).Nodup ∧
      (atPos 160).requester.entries = [] ∧
      Hears (atPos 160) (encodeBurst ⟨2, .status { statusFields .gone with requester := 3 }⟩) false
        (.valid ⟨2, .status { statusFields .gone with requester := 3 }⟩) := by
  refine ⟨fun oc ho e he => hears_of ?_, by decide +kernel, by decide +kernel, by decide +kernel, by decide +kernel,
    by decide +kernel, hears_of (by decide +kernel)⟩
  exact (by decide +kernel : ∀ oc ∈ [Outcome.delivered, .partly, .gone, .malformed, .refused],
      ∀ e ∈ [entry .sent 1 0 0, entry .sent 3 0 0, entry .sent 1 0 2, entry .composed 2 0 0, entry .composed 1 0 0],
    hearsAs (repairing e (atPos 160)) (encodeBurst ⟨2, .status (statusFields oc)⟩) false
      (.valid ⟨2, .status (statusFields oc)⟩) = true) oc ho e he

theorem witness_JoinAloneMakesMember :
    (listener false .tail).station.state = .listen ∧ (listener false .tail).roundTimer.markTimer ≠ none ∧
      (listener false .tail).station.silentExpiries = 3 ∧ (listener false .tail).members.length = 32 ∧
      (listener false .tail).banks.swapPending = none ∧
      ((List.range 32).filter (fun k => ((listener false .tail).member k).status == .present)) = [2, 3] ∧
      (listener false .tail).port.events.length + 2 < 32 ∧
      ((listener false .tail).setStation ⟨.listen, .noFault, 2, 0⟩).station.silentExpiries < 3 := by decide +kernel

theorem witness_JoinByCountMakesMember :
    ((hearing true (listener false .tail)).setStation ⟨.listen, .noFault, 0, 1⟩).bus.aligned = false ∧
      judge image .mark false (encodeBurst ⟨3, .mark (markFields 8 .commit)⟩) = .valid ⟨3, .mark (markFields 8 .commit)⟩ ∧
      judge image .mark false [1] = .checkFailure ∧
      (∀ n ∈ [1, 2], Hears ((hearing true (listener true .mark)).setStation ⟨.listen, .noFault, 0, n⟩)
          (encodeBurst ⟨3, .mark (markFields 8 .commit)⟩) true (.valid ⟨3, .mark (markFields 8 .commit)⟩) ∧
        Hears ((hearing true (listener true .mark)).setStation ⟨.listen, .noFault, 0, n⟩) [1] true .checkFailure) ∧
      (listener true .mark).settle.lastMark = some (7, .commit) ∧ image.absenceLimit = 2 ∧
      (listener true .mark).members.length = 32 ∧ (listener true .mark).banks.swapPending = none := by
  refine ⟨by decide, by decide +kernel, by decide +kernel, fun n hn => ?_, by decide +kernel⟩
  simp only [List.mem_cons, List.not_mem_nil, or_false] at hn
  rcases hn with rfl | rfl <;> exact ⟨hears_of (by decide +kernel), hears_of (by decide +kernel)⟩

theorem witness_SilentMembersBecomeAbsent :
    Hears atMark [1] true .checkFailure ∧ atMark.isMember = true ∧ atMark.members.length = 32 ∧ atMark.port.events = [] ∧
      (∃ e ∈ atMark.members, e.status = .present ∧ atMark.image.absenceLimit ≤ min 15 (e.rounds + 1)) ∧
      (∃ e ∈ atMark.members, e.status = .present ∧ min 15 (e.rounds + 1) < atMark.image.absenceLimit) ∧
      (member .mark).bus.hearing = none ∧
      Hears (hearing true (listener true .mark)) (encodeBurst ⟨3, .mark (markFields 8 .commit)⟩) true
        (.valid ⟨3, .mark (markFields 8 .commit)⟩) := by
  refine ⟨hears_of (by decide +kernel), by decide +kernel, by decide +kernel, by decide +kernel, by decide +kernel,
    by decide +kernel, by decide +kernel, hears_of (by decide +kernel)⟩

/-- The round start at which the input's silence reaches the limit. -/
def silent (c : CaptureState) (s : State) : State :=
  s.setCapture { (capturing c .taken s).capture with silence := 1 }

theorem witness_SilentInputIsLost :
    (∀ c ∈ [CaptureState.waiting, .capturing, .holding], Hears (silent c atMark) [1] true .checkFailure) ∧
      Hears (silent .dormant (hearing true (listener true .mark))) (encodeBurst ⟨3, .mark (markFields 8 .commit)⟩) true
        (.valid ⟨3, .mark (markFields 8 .commit)⟩) ∧
      (silent .capturing atMark).image.sourceRole = true ∧ (silent .capturing atMark).capture.input = .live ∧
      (silent .capturing atMark).image.silenceLimit ≤ min 255 ((silent .capturing atMark).capture.silence + 1) ∧
      (silent .capturing atMark).capture.rowCount ≤ (ownEntry (silent .capturing atMark)).height ∧
      (silent .capturing atMark).isMember = true ∧ (silent .capturing atMark).capture.state = .capturing ∧
      atMark.capture.input = .lost ∧
      (∀ c ∈ [CaptureState.capturing, .waiting],
        (after (.inputLost [1] orders) (silent c atMark)).port.events.length < 32) := by
  refine ⟨fun c hc => hears_of ?_, hears_of (by decide +kernel), by decide +kernel⟩
  exact (by decide +kernel : ∀ c ∈ [CaptureState.waiting, .capturing, .holding],
    hearsAs (silent c atMark) [1] true .checkFailure = true) c hc

theorem withinCapacity_silent : WithinCapacity (silent .capturing atMark) := by constructor <;> decide +kernel

/-- A round start with a MARK that makes no settle: of the settled frame, and of one behind; and one in LISTEN. -/
theorem witness_MakesNoSettle :
    (∀ f ∈ [7, 6], Hears (silent .capturing atMark) (encodeBurst ⟨3, .mark (markFields (BitVec.ofNat 16 f) .commit)⟩) true
        (.valid ⟨3, .mark (markFields (BitVec.ofNat 16 f) .commit)⟩) ∧
      MakesNoSettle (silent .capturing atMark) (.valid ⟨3, .mark (markFields (BitVec.ofNat 16 f) .commit)⟩)) ∧
      MakesNoSettle (silent .capturing atMark) .checkFailure ∧
      MakesNoSettle (silent .dormant (hearing true (listener true .mark))) (.valid ⟨3, .mark (markFields 8 .commit)⟩) := by
  refine ⟨fun f hf => ?_, .inr (.inl rfl), .inl (by decide)⟩
  simp only [List.mem_cons, List.not_mem_nil, or_false] at hf
  rcases hf with rfl | rfl
  · exact ⟨hears_of (by decide +kernel), .inr (.inr ⟨_, _, rfl, .inl (by decide)⟩)⟩
  · exact ⟨hears_of (by decide +kernel), .inr (.inr ⟨_, _, rfl, .inr (by decide)⟩)⟩

/-- A repair list with these entries, their tags and streams their places. -/
def listed (l : List RepairEntry) (s : State) : State :=
  s.setRequester { s.requester with
    entries := l.zipIdx.map (fun x => { x.1 with tag := x.2, stream := x.2 }), lastTag := 3 }

theorem witness_WaitsAndBackoffsEnd :
    Hears (listed [entry .composed 1 0 0, entry .sent 1 3 1, entry .sent 1 3 2, entry .sent 1 4 0] atMark) [1] true
        .checkFailure ∧
      RepairListInOrder (listed [entry .composed 1 0 0, entry .sent 1 3 1, entry .sent 1 3 2, entry .sent 1 4 0]
        atMark).requester ∧
      Hears (listed [entry .sent 2 5 0, entry .sent 3 5 0] atMark) [1] true .checkFailure ∧
      RepairListInOrder (listed [entry .sent 2 5 0, entry .sent 3 5 0] atMark).requester ∧
      atMark.requester.entries = [] ∧
      Hears (listed [entry .sent 2 5 0, entry .sent 3 5 0] atMark) (encodeBurst ⟨3, .mark (markFields 7 .commit)⟩) true
        (.valid ⟨3, .mark (markFields 7 .commit)⟩) :=
  ⟨hears_of (by decide +kernel), ⟨by decide, by decide, by decide, by decide, by decide⟩, hears_of (by decide +kernel),
    ⟨by decide, by decide, by decide, by decide, by decide⟩, rfl, hears_of (by decide +kernel)⟩

theorem witness_FrameStartByCaptureState :
    (plain .mark).image.sourceRole = false ∧ State.reset.station.state = .loading ∧
      (listener true .mark).image.sourceRole = true ∧ (listener true .mark).station.state = .listen ∧
      (isolate .mediumFault (member .mark)).station.state = .isolated ∧
      (isolate .mediumFault (member .mark)).image.sourceRole = true ∧
      (∀ c ∈ [CaptureState.waiting, .capturing, .holding], (capturing c .taken (member .mark)).capture.state = c ∧
        (capturing c .taken (member .mark)).capture.input = .live ∧
        (capturing c .taken (member .mark)).capture.shapeFaultPosted = false) ∧
      (member .mark).capture.state = .dormant ∧ (member .mark).capture.input = .lost ∧
      (member .mark).port.events.length < 32 := by decide +kernel

theorem withinCapacity_capturing : WithinCapacity (capturing .capturing .taken (member .mark)) := by
  constructor <;> decide +kernel

/-- A capture that ends with no row left and nothing queued enters HOLDING with the publish queue empty. -/
theorem test_publishes_at_holding :
    (after .frameStart ((capturing .capturing .taken (member .mark)).setCapture
      { (capturing .capturing .taken (member .mark)).capture with rowCount := 3 })).capture.published = true ∧
      (after .frameStart (capturing .capturing .taken (member .mark))).capture.published = false := by decide +kernel

theorem witness_RowCompletionCapturesRow :
    (plain .mark).image.sourceRole = false ∧ (listener true .mark).station.state ≠ .member ∧
      (member .mark).image.ownStream = some 0 ∧ (member .mark).ring.length ≤ 1024 ∧ ((member .mark).image.stream 0).width = 5 ∧
      (capturing .capturing .taken (member .mark)).capture.disposition = .taken ∧
      (capturing .holding .taken (member .mark)).capture.state = .holding ∧
      (capturing .waiting .skipped (member .mark)).capture.disposition = .skipped ∧
      (after (.rowCompletion [1]) (capturing .waiting .taken (member .mark))) = capturing .waiting .taken (member .mark) := by
  decide +kernel

theorem witness_PlacementAndClearWriteBackBank :
    (((member .mark).setLanding [fillPiece 8 0]).setEngine .placing).engine = .placing ∧
      (((member .mark).setLanding [fillPiece 8 0]).setEngine .placing).landing = fillPiece 8 0 :: [] ∧
      (coverageEntry image (member .mark).coverage 1 2 0).isSome = true ∧ (member .mark).banks.back.wf = true ∧
      (member .mark).engine = .idle ∧ (setClear .clearingBack (member .mark)).banks.clear = .clearingBack ∧
      (member .mark).banks.clear ≠ .clearingBack := by decide +kernel

theorem witness_ScanStartSwapsAndScans :
    State.reset.scan.timer = none ∧ (member .mark).scan.timer ≠ none ∧ (member .mark).banks.swapPending = none ∧
      ((member .mark).setBanks { (member .mark).banks with swapPending := some 8 }).banks.swapPending = some 8 ∧
      (member .mark).coverage.openFor = some ((member .mark).settle.frame + 1) ∧
      (listener true .mark).coverage.openFor ≠ some ((listener true .mark).settle.frame + 1) ∧
      (member .mark).pending = [] ∧ State.reset.scan.position = .idle ∧ (member .mark).scan.position = .row 0 ∧
      (scanOn (member .mark)).scan.position = .row 1 ∧
      (member .mark).image.panelHeight = 8 := by decide +kernel

theorem test_panelOutput_pulses :
    (panelOutput (member .mark)).head? = some { pod := 0x1234, povs := true, pohs := false } ∧
      (panelOutput (member .mark)).length = 16 ∧ panelOutput State.reset = [{ pod := 0, povs := false, pohs := false }] := by
  decide +kernel

/-- The own published flag runs a gap scan, whether or not the own stream contributes to the tile (R138). -/
theorem test_ownPublished_scans :
    (ownPublished wanting).requester.entries.map (fun e => e.stream) = [0, 1] ∧
      (ownPublished (configured { image with tileX := 5 } wanting)).requester.entries.map (fun e => e.stream) = [1] := by
  decide +kernel

theorem heldBack_member : PlacementHeldBack (member .mark) :=
  ⟨by decide, by decide, show (member .mark).banks.clear ≠ .clearingBoth by decide, by decide, by decide⟩

theorem heldBack_isolated : PlacementHeldBack (isolate .mediumFault (member .mark)) :=
  ⟨by decide, by decide, show (isolate .mediumFault (member .mark)).banks.clear = .idle by decide, by decide, by decide⟩

/-- For StepKeepsCapacities, StepKeepsPlacementHeldBack, StepKeepsBusAndOfferInOrder, StepKeepsCoverageCounts and
StepKeepsRepairListInOrder. -/
theorem witness_StepKeepsInvariants :
    WithinCapacity (member .mark) ∧ BanksCanonical (member .mark) ∧ PlacementHeldBack (member .mark) ∧
      BusInOrder (member .mark) ∧ OfferInOrder (member .mark) ∧ CoverageCounts (member .mark).coverage ∧
      RepairListInOrder (member .mark).requester ∧ step (member .mark) = .next (scanOn (member .mark)) :=
  ⟨by constructor <;> decide +kernel, by constructor <;> decide +kernel, heldBack_member,
    ⟨by decide, by decide, by decide, by decide, by decide, fun k h => (nomatch h), by decide, by decide⟩,
    by constructor <;> decide +kernel,
    ⟨by decide +kernel, by decide +kernel, by decide +kernel, by unfold PiecesDistinct; decide +kernel, by decide +kernel⟩,
    ⟨by decide, by decide, by decide, by decide, fun e h => (nomatch h)⟩, rfl⟩

/-- A piece claimed waits in the landing queue, and the ring holds two rows. -/
def holdingWork : State :=
  (((capturing .holding .taken (member .mark)).setCapture
      { (capturing .holding .taken (member .mark)).capture with rowCount := 3 }).setRing
    [⟨1, 0, 5, true, []⟩, ⟨2, 0, 5, true, []⟩]).setLanding [fillPiece 8 0] |>.setCoverage
    ((member .mark).coverage.claim image 1 2 0)

/-- For the landing queue and the retain ring in StepKeepsCoverageCounts and StepKeepsBusAndOfferInOrder. -/
theorem witness_StepKeepsQueues :
    LandingInOrder holdingWork ∧ RingInOrder holdingWork ∧ OfferInOrder holdingWork ∧
      step holdingWork = .next (scanOn holdingWork) :=
  ⟨⟨by decide, fun p hp => by
      simp only [holdingWork, State.setLanding, State.setCoverage, List.mem_singleton] at hp
      subst hp
      exact ⟨(coverageEntry image holdingWork.coverage 1 2 0).getD ⟨⟨0, 0, 0, 0, 0, 0⟩, false⟩, by decide +kernel⟩,
      by decide, by decide, by decide⟩,
    ⟨by decide, by decide, by decide, by decide⟩, by constructor <;> decide +kernel, rfl⟩

theorem witness_SettledFrameMovesForward :
    atMark.isMember = true ∧
      (after (.burstTaken (encodeBurst ⟨3, .mark (markFields 32774 .commit)⟩) orders) atMark).settle.frame = 32774 ∧
      (after .scanEnd atMark).settle.frame = 7 := by decide +kernel

theorem witness_FrontBankIsNotWritten :
    (after .placementComplete (((member .mark).setLanding [fillPiece 8 0]).setEngine .placing)).banks.bank0 =
      Bank.cleared 0x1234 ∧ (member .mark).banks.front = .bank0 := by decide +kernel

theorem witness_OnlyResetReconfigures :
    (isolate .mediumFault (member .mark)).station.state = .isolated ∧ (member .mark).loader.reading = false ∧
      PlacementHeldBack (isolate .mediumFault (member .mark)) ∧ isPortCommand .scanStart = false ∧
      (after .scanStart (isolate .mediumFault (member .mark))).port = (isolate .mediumFault (member .mark)).port :=
  ⟨by decide, by decide, heldBack_isolated, rfl, by decide +kernel⟩

theorem witness_WallWorkIgnoresPort :
    isPortCommand .scanEnd = false ∧ exec .scanEnd (member .mark) = .next (after .scanEnd (member .mark)) := ⟨rfl, rfl⟩

end Sys2Proof.Tests
end

section
/-! Pixels and the values a piece is placed with (R7, R9, R116). -/

namespace Sys2Proof.Machine

/-- A pixel keeps colours that fit the 5-6-5 widths. -/
theorem coloursOf_pixelOf {red green blue : Nat} (hred : red < 32) (hgreen : green < 64) (hblue : blue < 32) :
    coloursOf (pixelOf { red, green, blue }) = { red, green, blue } := by
  have hword : (pixelOf { red, green, blue }).toNat = red * 2048 + green * 32 + blue := by
    have hfits : red * 2048 + green * 32 + blue < 2 ^ 16 := by omega
    rw [pixelOf, BitVec.toNat_ofNat]
    exact Nat.mod_eq_of_lt hfits
  rw [coloursOf, hword, Colours.mk.injEq]
  exact ⟨by omega, by omega, by omega⟩

/-- Expanded 4-bit colours fit the pixel's widths, so the pixel carries each of them whole. -/
theorem coloursOf_expand {red green blue : Nat} (hred : red < 16) (hgreen : green < 16) (hblue : blue < 16) :
    coloursOf (expand { red, green, blue }) =
      { red := 2 * red + red / 8, green := 4 * green + green / 4, blue := 2 * blue + blue / 8 } := by
  have hredFits : 2 * red + red / 8 < 32 := by omega
  have hgreenFits : 4 * green + green / 4 < 64 := by omega
  have hblueFits : 2 * blue + blue / 8 < 32 := by omega
  exact coloursOf_pixelOf hredFits hgreenFits hblueFits

theorem Piece.pixels_of_narrow (p : Piece) (background : Pixel) (hfill : p.fill = false) (hformat : p.format = .narrow) :
    p.pixels background = (unpackNarrow p.payload).map expand := by
  simp [Piece.pixels, hfill, hformat]

theorem Piece.pixels_of_wide (p : Piece) (background : Pixel) (hfill : p.fill = false) (hformat : p.format = .wide) :
    p.pixels background = unpackWide p.payload := by
  simp [Piece.pixels, hfill, hformat]

/-- Settles O15: both ends of the 4-bit range are instances of the expansion of every value, and black and white come back as
the pixels they were captured from. -/
theorem narrowPixelsAreExpanded : Obligations.NarrowPixelsAreExpanded := by
  refine ⟨fun _ _ _ hred hgreen hblue => coloursOf_expand hred hgreen hblue, ?zero, ?fullScale, ?black, ?white,
    fun p background => p.pixels_of_narrow background, fun p background => p.pixels_of_wide background⟩
  case zero => exact coloursOf_expand (by decide) (by decide) (by decide)
  case fullScale => exact coloursOf_expand (by decide) (by decide) (by decide)
  case black => decide
  case white => decide

end Sys2Proof.Machine
end

section
/-! How the settle unit compares frames, and what each outcome does to its own part of the state (R62, R63). -/

namespace Sys2Proof.Machine

/-! ## The forward difference -/

theorem forward_eq_mod (f x : Frame) : forward f x = (x.toNat + 65536 - f.toNat) % 65536 := by
  have hf : f.toNat < 65536 := f.isLt
  rw [forward, BitVec.toNat_sub, ← Nat.sub_add_comm hf.le, Nat.add_comm]

theorem eq_add_of_forward_eq_one {f x : Frame} (h : forward f x = 1) : x = f + 1 := by
  have hdiff : x - f = 1 := BitVec.eq_of_toNat_eq h
  rw [← hdiff, BitVec.add_comm, BitVec.sub_add_cancel]

/-- A settle of the frame that lies behind brings it one nearer. -/
theorem forward_add_one_left {f x : Frame} (h : 1 ≤ forward f x) : forward (f + 1) x = forward f x - 1 := by
  unfold forward at *
  bv_omega

/-- A settle of the frame that lies ahead takes it one farther, short of the wrap. -/
theorem forward_add_one_right {f x : Frame} (h : forward f x < 65535) : forward f (x + 1) = forward f x + 1 := by
  unfold forward at *
  bv_omega

/-! ## The five outcomes of a comparison -/

theorem compareFrame_of_same {f x : Frame} (h : forward f x = 0) : compareFrame f x = .same := by
  simp only [compareFrame, h]

theorem compareFrame_of_oneAhead {f x : Frame} (h : forward f x = 1) : compareFrame f x = .oneAhead := by
  simp only [compareFrame, h]

theorem compareFrame_of_two_le {f x : Frame} (h : 2 ≤ forward f x) :
    compareFrame f x = if forward f x ≤ 32767 then .farAhead else .behind := by
  unfold compareFrame
  split
  next hzero => omega
  next hone => omega
  next => rfl

theorem compareFrame_of_farAhead {f x : Frame} (hlow : 2 ≤ forward f x) (hhigh : forward f x ≤ 32767) :
    compareFrame f x = .farAhead := by
  rw [compareFrame_of_two_le hlow, if_pos hhigh]

/-- 32768 itself lies on this side of the comparison. -/
theorem compareFrame_of_behind {f x : Frame} (h : 32768 ≤ forward f x) : compareFrame f x = .behind := by
  rw [compareFrame_of_two_le (by omega), if_neg (by omega)]

theorem compareFrame_ne_behind {f x : Frame} (h : forward f x ≤ 32767) : compareFrame f x ≠ .behind := by
  unfold compareFrame
  split <;> simp [h]

/-! ## The settle unit's own part of a settle (R63) -/

@[simp] theorem advance_settle (f : Frame) (k : SettleKind) (s : State) :
    (advance f k s).settle = { s.settle with frame := f, kind := k, openAge := 0 } := rfl

@[simp] theorem raise_settle (c : Counter) (n : Nat) (s : State) : (raise c n s).settle = s.settle :=
  (raise_writes c n s).keeps .settle (by decide)

@[simp] theorem post_settle (e : EventKind) (f : Frame) (d : Byte) (s : State) : (post e f d s).settle = s.settle :=
  (post_writes e f d s).keeps .settle (by decide)

/-- A block that acts on the notice finds the settle unit already holding the new frame, and leaves it so. -/
@[simp] theorem notice_settle (a : Action) (f : Frame) (complete wasMember : Bool) (s : State) :
    (notice a f complete wasMember s).settle = s.settle :=
  (notice_writes a f complete wasMember s).keeps .settle (by decide)

@[simp] theorem settleCommit_settle (s : State) :
    (settleCommit s).settle = { s.settle with frame := s.settle.frame + 1, kind := .commit, openAge := 0 } := by
  simp [settleCommit, State.openFrame]

@[simp] theorem settleAbandon_settle (path : SettlePath) (s : State) :
    (settleAbandon path s).settle = { s.settle with frame := s.settle.frame + 1, kind := .abandon, openAge := 0 } := by
  simp [settleAbandon, State.openFrame]

@[simp] theorem resync_settle (f : Frame) (k : SettleKind) (s : State) :
    (resync f k s).settle = { s.settle with frame := f, kind := k, openAge := 0 } := by
  simp [resync]

/-! ## A frame taken by the outcome of its comparison (R62, R73, R74, R77, R78) -/

section
variable {s : State} {f : Frame} (path : SettlePath) (k : SettleKind)

theorem takeAhead_of_same (h : forward s.settle.frame f = 0) :
    takeAhead path f k (compareFrame s.settle.frame f) s = s := by
  rw [compareFrame_of_same h]
  rfl

/-- One ahead, a settle of the open frame and a resync agree on the settled frame: it becomes the frame carried. -/
theorem takeAhead_of_oneAhead_settle (h : forward s.settle.frame f = 1) :
    (takeAhead path f k (compareFrame s.settle.frame f) s).settle =
      { s.settle with frame := s.settle.frame + 1, kind := k, openAge := 0 } := by
  rw [compareFrame_of_oneAhead h]
  cases k with
  | start => rw [takeAhead, resync_settle, eq_add_of_forward_eq_one h]
  | commit => exact settleCommit_settle s
  | abandon => exact settleAbandon_settle path s

theorem takeAhead_of_farAhead (hlow : 2 ≤ forward s.settle.frame f) (hhigh : forward s.settle.frame f ≤ 32767) :
    takeAhead path f k (compareFrame s.settle.frame f) s = resync f k s := by
  rw [compareFrame_of_farAhead hlow hhigh]
  rfl

theorem takeAhead_of_behind (h : 32768 ≤ forward s.settle.frame f) :
    takeAhead path f k (compareFrame s.settle.frame f) s = s := by
  rw [compareFrame_of_behind h]
  rfl

end

/-! ## A frame carried by a MARK or a STATE (R71 to R78) -/

/-- A MARK is taken as a frame ahead is, but for the event a MARK behind leaves (R75). -/
theorem takeMark_eq_takeAhead (sender : Nat) (m : MarkFields) (s : State) (h : forward s.settle.frame m.settled ≤ 32767) :
    takeMark sender m s = takeAhead .receivedMark m.settled m.kind (compareFrame s.settle.frame m.settled) s := by
  unfold takeMark
  cases horder : compareFrame s.settle.frame m.settled with
  | same => rfl
  | oneAhead => rfl
  | farAhead => rfl
  | behind => exact absurd horder (compareFrame_ne_behind h)

theorem takeMark_of_behind (sender : Nat) (m : MarkFields) (s : State) (h : 32768 ≤ forward s.settle.frame m.settled) :
    takeMark sender m s = post .laggingMark m.settled (toByte sender) s := by
  simp only [takeMark, compareFrame_of_behind h]

/-- A STATE of another station of the same wall is taken as a frame ahead is (R76). -/
theorem settleTakeState_eq_takeAhead {sender : Nat} {m : StateFields} {s : State} (hsender : sender ≠ s.image.stationNumber)
    (hdigest : m.digest = s.digest) :
    settleTakeState sender m s = takeAhead .state m.settled m.kind (compareFrame s.settle.frame m.settled) s := by
  simp [settleTakeState, hsender, hdigest]

/-- Settles O35: a MARK up to 32767 ahead and a STATE both come down to `takeAhead` at the outcome of the comparison. -/
theorem frameComparisonDecidesSettle : Obligations.FrameComparisonDecidesSettle := by
  refine ⟨fun f x => ⟨forward_eq_mod f x, fun h => ⟨?nearer, ?farther⟩⟩, fun s k m => ?mark,
    fun s k m hsender hdigest => ?state⟩
  case nearer => rw [forward_add_one_left (by omega), h]
  case farther => rw [forward_add_one_right (by omega), h]
  case mark =>
    refine ⟨fun h => ?same, fun h => ?one, fun hlow hhigh => ?far, fun h => ?behind⟩
    case same => rw [takeMark_eq_takeAhead k m s (by omega), takeAhead_of_same _ _ h]
    case one =>
      rw [takeMark_eq_takeAhead k m s (by omega)]
      refine ⟨by rw [takeAhead_of_oneAhead_settle _ _ h], ?_⟩
      rw [compareFrame_of_oneAhead h]
      cases m.kind <;> rfl
    case far =>
      rw [takeMark_eq_takeAhead k m s hhigh, takeAhead_of_farAhead _ _ hlow hhigh]
      exact ⟨rfl, by rw [resync_settle]⟩
    case behind =>
      rw [takeMark_of_behind k m s h]
      exact ⟨rfl, post_settle _ _ _ s⟩
  case state =>
    rw [settleTakeState_eq_takeAhead hsender hdigest]
    refine ⟨takeAhead_of_same _ _, fun h => ?one, fun hlow hhigh => ?far, takeAhead_of_behind _ _⟩
    case one =>
      refine ⟨by rw [takeAhead_of_oneAhead_settle _ _ h], ?_⟩
      rw [compareFrame_of_oneAhead h]
      cases m.kind <;> rfl
    case far =>
      rw [takeAhead_of_farAhead _ _ hlow hhigh]
      exact ⟨rfl, by rw [resync_settle]⟩

end Sys2Proof.Machine
end

section
/-! The orientation mapping and its inverse (R118): an exchange of the axes, then a mirroring of each panel coordinate, which is
its own inverse. -/

namespace Sys2Proof.Machine

/-! ## One panel coordinate -/

/-- A coordinate of a side of `size` pixels, counted from the far end when `reverse` is set: the second step of R118. -/
def mirrored (reverse : Bool) (size a : Nat) : Nat := if reverse then size - 1 - a else a

@[simp] theorem mirrored_false (size a : Nat) : mirrored false size a = a := rfl

@[simp] theorem mirrored_true (size a : Nat) : mirrored true size a = size - 1 - a := rfl

theorem mirrored_lt (reverse : Bool) {size a : Nat} (h : a < size) : mirrored reverse size a < size := by
  cases reverse with
  | false => exact h
  | true => rw [mirrored_true]; omega

theorem mirrored_mirrored (reverse : Bool) {size a : Nat} (h : a < size) :
    mirrored reverse size (mirrored reverse size a) = a := by
  cases reverse with
  | false => rfl
  | true => simp only [mirrored_true]; omega

/-! ## The mapping with the axes kept and with the axes exchanged -/

section
variable {img : Image}

theorem panelPosition_of_axesKept (h : img.swapAxes = false) (u v : Nat) :
    img.panelPosition u v =
      (mirrored img.reverseColumns img.panelWidth u, mirrored img.reverseRows img.panelHeight v) := by
  simp [Image.panelPosition, mirrored, h]

theorem panelPosition_of_axesSwapped (h : img.swapAxes = true) (u v : Nat) :
    img.panelPosition u v =
      (mirrored img.reverseColumns img.panelWidth v, mirrored img.reverseRows img.panelHeight u) := by
  simp [Image.panelPosition, mirrored, h]

theorem inTile_iff_of_axesKept (h : img.swapAxes = false) (u v : Nat) :
    u < img.tileWidth ∧ v < img.tileHeight ↔ u < img.panelWidth ∧ v < img.panelHeight := by
  simp [Image.tileWidth, Image.tileHeight, h]

theorem inTile_iff_of_axesSwapped (h : img.swapAxes = true) (u v : Nat) :
    u < img.tileWidth ∧ v < img.tileHeight ↔ u < img.panelHeight ∧ v < img.panelWidth := by
  simp [Image.tileWidth, Image.tileHeight, h]

end

/-! ## The inverse -/

/-- Panel coordinates to tile offsets: the mirroring undone, then the exchange of the axes. -/
def Image.tileOffsets (img : Image) (x y : Nat) : Nat × Nat :=
  let x' := mirrored img.reverseColumns img.panelWidth x
  let y' := mirrored img.reverseRows img.panelHeight y
  if img.swapAxes then (y', x') else (x', y')

section
variable {img : Image} {u v x y : Nat}

theorem tileOffsets_of_axesKept (h : img.swapAxes = false) (x y : Nat) :
    img.tileOffsets x y =
      (mirrored img.reverseColumns img.panelWidth x, mirrored img.reverseRows img.panelHeight y) := by
  simp [Image.tileOffsets, h]

theorem tileOffsets_of_axesSwapped (h : img.swapAxes = true) (x y : Nat) :
    img.tileOffsets x y =
      (mirrored img.reverseRows img.panelHeight y, mirrored img.reverseColumns img.panelWidth x) := by
  simp [Image.tileOffsets, h]

theorem panelPosition_inPanel (htile : u < img.tileWidth ∧ v < img.tileHeight) :
    (img.panelPosition u v).1 < img.panelWidth ∧ (img.panelPosition u v).2 < img.panelHeight := by
  cases hswap : img.swapAxes with
  | false =>
    obtain ⟨hu, hv⟩ := (inTile_iff_of_axesKept hswap u v).mp htile
    rw [panelPosition_of_axesKept hswap]
    exact ⟨mirrored_lt _ hu, mirrored_lt _ hv⟩
  | true =>
    obtain ⟨hu, hv⟩ := (inTile_iff_of_axesSwapped hswap u v).mp htile
    rw [panelPosition_of_axesSwapped hswap]
    exact ⟨mirrored_lt _ hv, mirrored_lt _ hu⟩

theorem tileOffsets_inTile (hx : x < img.panelWidth) (hy : y < img.panelHeight) :
    (img.tileOffsets x y).1 < img.tileWidth ∧ (img.tileOffsets x y).2 < img.tileHeight := by
  cases hswap : img.swapAxes with
  | false =>
    rw [inTile_iff_of_axesKept hswap, tileOffsets_of_axesKept hswap]
    exact ⟨mirrored_lt _ hx, mirrored_lt _ hy⟩
  | true =>
    rw [inTile_iff_of_axesSwapped hswap, tileOffsets_of_axesSwapped hswap]
    exact ⟨mirrored_lt _ hy, mirrored_lt _ hx⟩

theorem tileOffsets_panelPosition (htile : u < img.tileWidth ∧ v < img.tileHeight) :
    img.tileOffsets (img.panelPosition u v).1 (img.panelPosition u v).2 = (u, v) := by
  cases hswap : img.swapAxes with
  | false =>
    obtain ⟨hu, hv⟩ := (inTile_iff_of_axesKept hswap u v).mp htile
    rw [panelPosition_of_axesKept hswap, tileOffsets_of_axesKept hswap, mirrored_mirrored _ hu, mirrored_mirrored _ hv]
  | true =>
    obtain ⟨hu, hv⟩ := (inTile_iff_of_axesSwapped hswap u v).mp htile
    rw [panelPosition_of_axesSwapped hswap, tileOffsets_of_axesSwapped hswap, mirrored_mirrored _ hu, mirrored_mirrored _ hv]

theorem panelPosition_tileOffsets (hx : x < img.panelWidth) (hy : y < img.panelHeight) :
    img.panelPosition (img.tileOffsets x y).1 (img.tileOffsets x y).2 = (x, y) := by
  cases hswap : img.swapAxes with
  | false =>
    rw [tileOffsets_of_axesKept hswap, panelPosition_of_axesKept hswap, mirrored_mirrored _ hx, mirrored_mirrored _ hy]
  | true =>
    rw [tileOffsets_of_axesSwapped hswap, panelPosition_of_axesSwapped hswap, mirrored_mirrored _ hx, mirrored_mirrored _ hy]

end

/-- Settles O17: `tileOffsets` undoes the mapping on the tile, so no two tile pixels meet, and it finds a tile pixel for every
panel pixel. -/
theorem orientationIsOneToOne : Obligations.OrientationIsOneToOne := by
  refine fun img => ⟨fun u v => ?table, fun u v hu hv => panelPosition_inPanel ⟨hu, hv⟩,
    fun u v u' v' hu hv hu' hv' heq => ?injective, fun x y hx hy => ?surjective, fun u u' v hswap => ?rowKept,
    fun u u' v hswap => ?columnKept⟩
  case table =>
    cases hswap : img.swapAxes with
    | false =>
      rw [panelPosition_of_axesKept hswap]
      cases img.reverseColumns <;> cases img.reverseRows <;> rfl
    | true =>
      rw [panelPosition_of_axesSwapped hswap]
      cases img.reverseColumns <;> cases img.reverseRows <;> rfl
  case injective =>
    have hpair : (u, v) = (u', v') := by
      rw [← tileOffsets_panelPosition ⟨hu, hv⟩, heq, tileOffsets_panelPosition ⟨hu', hv'⟩]
    exact Prod.mk.inj hpair
  case surjective =>
    obtain ⟨hu, hv⟩ := tileOffsets_inTile hx hy
    exact ⟨_, _, hu, hv, panelPosition_tileOffsets hx hy⟩
  case rowKept => simp only [panelPosition_of_axesKept hswap]
  case columnKept => simp only [panelPosition_of_axesSwapped hswap]

end Sys2Proof.Machine
end

section
/-! What a step keeps, packaged once: all the invariants of Safety.lean as one relation between two states, with a rule for an
update by the fields it writes. -/

namespace Sys2Proof.Machine

/-! ## States that agree field by field -/

theorem eq_of_same {s t : State} (h : ∀ f : Field, f.same s t) : t = s := by
  obtain ⟨⟩ := s
  obtain ⟨⟩ := t
  simp only [State.mk.injEq]
  exact ⟨h .loader, h .station, h .bus, h .roundTimer, h .members, h .settle, h .capture, h .ring, h .publishQueue, h .coverage,
    h .landing, h .engine, h .banks, h .scan, h .requester, h .responder, h .port, h .resetAsserted, h .freeSeq, h .pending⟩

theorem eq_setPort_of_writes {s t : State} (h : OnlyWrites [.port] s t) : t = s.setPort t.port := by
  refine eq_of_same fun f => ?_
  by_cases hf : f = .port
  · subst hf
    rfl
  · have hsame := h f (by simpa using hf)
    cases f <;> first | exact hsame | exact absurd rfl hf

/-! ## The invariants as one relation -/

/-- From `s` to `t` every invariant of Safety.lean is kept but that of the landing queue, which a settle breaks until the coverage
table is open for the new frame. -/
structure KeepsButLanding (s t : State) : Prop where
  capacity : WithinCapacity s → WithinCapacity t
  canonical : BanksCanonical s → BanksCanonical t
  heldBack : PlacementHeldBack s → PlacementHeldBack t
  bus : BusInOrder s → BusInOrder t
  offer : OfferInOrder s → OfferInOrder t
  ring : OfferInOrder s → RingInOrder s → RingInOrder t
  coverage : CoverageCounts s.coverage → CoverageCounts t.coverage
  repair : RepairListInOrder s.requester → RepairListInOrder t.requester

/-- From `s` to `t` every invariant of Safety.lean is kept. -/
structure KeepsInvariants (s t : State) : Prop extends KeepsButLanding s t where
  landing : LandingInOrder s → LandingInOrder t

section
variable {s t u : State}

theorem KeepsButLanding.trans (a : KeepsButLanding s t) (b : KeepsButLanding t u) : KeepsButLanding s u where
  capacity h := b.capacity (a.capacity h)
  canonical h := b.canonical (a.canonical h)
  heldBack h := b.heldBack (a.heldBack h)
  bus h := b.bus (a.bus h)
  offer h := b.offer (a.offer h)
  ring ho h := b.ring (a.offer ho) (a.ring ho h)
  coverage h := b.coverage (a.coverage h)
  repair h := b.repair (a.repair h)

namespace KeepsInvariants

theorem refl : KeepsInvariants s s :=
  ⟨⟨fun h => h, fun h => h, fun h => h, fun h => h, fun h => h, fun _ h => h, fun h => h, fun h => h⟩, fun h => h⟩

theorem of_eq (h : t = s) : KeepsInvariants s t := h ▸ refl

theorem trans (a : KeepsInvariants s t) (b : KeepsInvariants t u) : KeepsInvariants s u :=
  ⟨a.toKeepsButLanding.trans b.toKeepsButLanding, fun h => b.landing (a.landing h)⟩

end KeepsInvariants

end

/-! ## Which fields an invariant reads -/

section
variable {fs : List Field} {s t : State}

theorem withinCapacity_of_writes (w : OnlyWrites fs s t)
    (h : ∀ f ∈ fs, f ∉ [Field.loader, .station, .bus, .members, .settle, .capture, .ring, .publishQueue, .landing, .requester,
      .responder, .port]) : WithinCapacity s → WithinCapacity t := by
  have e : ∀ f ∈ [Field.loader, .station, .bus, .members, .settle, .capture, .ring, .publishQueue, .landing, .requester,
      .responder, .port], f.same s t := fun f hf => w f (fun hw => h f hw hf)
  have eloader : t.loader = s.loader := e .loader (by decide)
  have estation : t.station = s.station := e .station (by decide)
  have ebus : t.bus = s.bus := e .bus (by decide)
  have emembers : t.members = s.members := e .members (by decide)
  have esettle : t.settle = s.settle := e .settle (by decide)
  have ecapture : t.capture = s.capture := e .capture (by decide)
  have ering : t.ring = s.ring := e .ring (by decide)
  have equeue : t.publishQueue = s.publishQueue := e .publishQueue (by decide)
  have elanding : t.landing = s.landing := e .landing (by decide)
  have erequester : t.requester = s.requester := e .requester (by decide)
  have eresponder : t.responder = s.responder := e .responder (by decide)
  have eport : t.port = s.port := e .port (by decide)
  have eimage : t.image = s.image := by simp only [State.image, eloader]
  have eown : ownEntry t = ownEntry s := by simp only [ownEntry, eimage]
  rintro ⟨⟩
  constructor <;> simp only [eimage, eown, estation, ebus, emembers, esettle, ecapture, ering, equeue, elanding, erequester,
    eresponder, eport] <;> assumption

theorem banksCanonical_of_writes (w : OnlyWrites fs s t) (h : Field.banks ∉ fs) : BanksCanonical s → BanksCanonical t := by
  have ebanks : t.banks = s.banks := w .banks h
  rw [BanksCanonical, BanksCanonical, ebanks]
  exact fun h => h

theorem placementHeldBack_of_writes (w : OnlyWrites fs s t)
    (h : ∀ f ∈ fs, f ∉ [Field.loader, .station, .landing, .engine, .banks]) : PlacementHeldBack s → PlacementHeldBack t := by
  have e : ∀ f ∈ [Field.loader, .station, .landing, .engine, .banks], f.same s t := fun f hf => w f (fun hw => h f hw hf)
  have eloader : t.loader = s.loader := e .loader (by decide)
  have estation : t.station = s.station := e .station (by decide)
  have elanding : t.landing = s.landing := e .landing (by decide)
  have eengine : t.engine = s.engine := e .engine (by decide)
  have ebanks : t.banks = s.banks := e .banks (by decide)
  rintro ⟨⟩
  constructor <;> simp only [eloader, estation, elanding, eengine, ebanks] <;> assumption

theorem busInOrder_of_writes (w : OnlyWrites fs s t) (h : ∀ f ∈ fs, f ∉ [Field.station, .bus, .roundTimer]) :
    BusInOrder s → BusInOrder t := by
  have e : ∀ f ∈ [Field.station, .bus, .roundTimer], f.same s t := fun f hf => w f (fun hw => h f hw hf)
  have estation : t.station = s.station := e .station (by decide)
  have ebus : t.bus = s.bus := e .bus (by decide)
  have etimer : t.roundTimer = s.roundTimer := e .roundTimer (by decide)
  rintro ⟨⟩
  constructor <;> simp only [estation, ebus, etimer] <;> assumption

theorem offerInOrder_of_writes (w : OnlyWrites fs s t) (h : ∀ f ∈ fs, f ∉ [Field.station, .capture, .publishQueue]) :
    OfferInOrder s → OfferInOrder t := by
  have e : ∀ f ∈ [Field.station, .capture, .publishQueue], f.same s t := fun f hf => w f (fun hw => h f hw hf)
  have estation : t.station = s.station := e .station (by decide)
  have ecapture : t.capture = s.capture := e .capture (by decide)
  have equeue : t.publishQueue = s.publishQueue := e .publishQueue (by decide)
  rintro ⟨⟩
  constructor <;> simp only [estation, ecapture, equeue] <;> assumption

theorem ringInOrder_of_writes (w : OnlyWrites fs s t) (h : ∀ f ∈ fs, f ∉ [Field.loader, .station, .capture, .ring]) :
    RingInOrder s → RingInOrder t := by
  have e : ∀ f ∈ [Field.loader, .station, .capture, .ring], f.same s t := fun f hf => w f (fun hw => h f hw hf)
  have eloader : t.loader = s.loader := e .loader (by decide)
  have estation : t.station = s.station := e .station (by decide)
  have ecapture : t.capture = s.capture := e .capture (by decide)
  have ering : t.ring = s.ring := e .ring (by decide)
  have eimage : t.image = s.image := by simp only [State.image, eloader]
  have eown : ownEntry t = ownEntry s := by simp only [ownEntry, eimage]
  rintro ⟨⟩
  constructor <;> simp only [State.isMember, eown, estation, ecapture, ering] <;> assumption

theorem coverageCounts_of_writes (w : OnlyWrites fs s t) (h : Field.coverage ∉ fs) :
    CoverageCounts s.coverage → CoverageCounts t.coverage := by
  have ecoverage : t.coverage = s.coverage := w .coverage h
  rw [ecoverage]
  exact fun h => h

theorem landingInOrder_of_writes (w : OnlyWrites fs s t)
    (h : ∀ f ∈ fs, f ∉ [Field.loader, .station, .settle, .coverage, .landing]) : LandingInOrder s → LandingInOrder t := by
  have e : ∀ f ∈ [Field.loader, .station, .settle, .coverage, .landing], f.same s t := fun f hf => w f (fun hw => h f hw hf)
  have eloader : t.loader = s.loader := e .loader (by decide)
  have estation : t.station = s.station := e .station (by decide)
  have esettle : t.settle = s.settle := e .settle (by decide)
  have ecoverage : t.coverage = s.coverage := e .coverage (by decide)
  have elanding : t.landing = s.landing := e .landing (by decide)
  have eimage : t.image = s.image := by simp only [State.image, eloader]
  rintro ⟨⟩
  constructor <;> simp only [State.isMember, eimage, estation, esettle, ecoverage, elanding] <;> assumption

theorem repairListInOrder_of_writes (w : OnlyWrites fs s t) (h : Field.requester ∉ fs) :
    RepairListInOrder s.requester → RepairListInOrder t.requester := by
  have erequester : t.requester = s.requester := w .requester h
  rw [erequester]
  exact fun h => h

/-- What an operation must show of each invariant whose fields it writes; the others are kept by the fields it leaves. -/
theorem KeepsButLanding.of_writes (w : OnlyWrites fs s t)
    (capacity : ¬ (∀ f ∈ fs, f ∉ [Field.loader, .station, .bus, .members, .settle, .capture, .ring, .publishQueue, .landing,
      .requester, .responder, .port]) → WithinCapacity s → WithinCapacity t := by exact fun h => absurd (by decide) h)
    (canonical : ¬ Field.banks ∉ fs → BanksCanonical s → BanksCanonical t := by exact fun h => absurd (by decide) h)
    (heldBack : ¬ (∀ f ∈ fs, f ∉ [Field.loader, .station, .landing, .engine, .banks]) →
      PlacementHeldBack s → PlacementHeldBack t := by exact fun h => absurd (by decide) h)
    (bus : ¬ (∀ f ∈ fs, f ∉ [Field.station, .bus, .roundTimer]) → BusInOrder s → BusInOrder t := by
      exact fun h => absurd (by decide) h)
    (offer : ¬ (∀ f ∈ fs, f ∉ [Field.station, .capture, .publishQueue]) → OfferInOrder s → OfferInOrder t := by
      exact fun h => absurd (by decide) h)
    (ring : ¬ (∀ f ∈ fs, f ∉ [Field.loader, .station, .capture, .ring]) →
      OfferInOrder s → RingInOrder s → RingInOrder t := by exact fun h => absurd (by decide) h)
    (coverage : ¬ Field.coverage ∉ fs → CoverageCounts s.coverage → CoverageCounts t.coverage := by
      exact fun h => absurd (by decide) h)
    (repair : ¬ Field.requester ∉ fs → RepairListInOrder s.requester → RepairListInOrder t.requester := by
      exact fun h => absurd (by decide) h) : KeepsButLanding s t where
  capacity := by_cases (withinCapacity_of_writes w) capacity
  canonical := by_cases (banksCanonical_of_writes w) canonical
  heldBack := by_cases (placementHeldBack_of_writes w) heldBack
  bus := by_cases (busInOrder_of_writes w) bus
  offer := by_cases (offerInOrder_of_writes w) offer
  ring := by_cases (fun h _ => ringInOrder_of_writes w h) ring
  coverage := by_cases (coverageCounts_of_writes w) coverage
  repair := by_cases (repairListInOrder_of_writes w) repair

/-- The same for all invariants. -/
theorem KeepsInvariants.of_writes (w : OnlyWrites fs s t)
    (capacity : ¬ (∀ f ∈ fs, f ∉ [Field.loader, .station, .bus, .members, .settle, .capture, .ring, .publishQueue, .landing,
      .requester, .responder, .port]) → WithinCapacity s → WithinCapacity t := by exact fun h => absurd (by decide) h)
    (canonical : ¬ Field.banks ∉ fs → BanksCanonical s → BanksCanonical t := by exact fun h => absurd (by decide) h)
    (heldBack : ¬ (∀ f ∈ fs, f ∉ [Field.loader, .station, .landing, .engine, .banks]) →
      PlacementHeldBack s → PlacementHeldBack t := by exact fun h => absurd (by decide) h)
    (bus : ¬ (∀ f ∈ fs, f ∉ [Field.station, .bus, .roundTimer]) → BusInOrder s → BusInOrder t := by
      exact fun h => absurd (by decide) h)
    (offer : ¬ (∀ f ∈ fs, f ∉ [Field.station, .capture, .publishQueue]) → OfferInOrder s → OfferInOrder t := by
      exact fun h => absurd (by decide) h)
    (ring : ¬ (∀ f ∈ fs, f ∉ [Field.loader, .station, .capture, .ring]) →
      OfferInOrder s → RingInOrder s → RingInOrder t := by exact fun h => absurd (by decide) h)
    (coverage : ¬ Field.coverage ∉ fs → CoverageCounts s.coverage → CoverageCounts t.coverage := by
      exact fun h => absurd (by decide) h)
    (landing : ¬ (∀ f ∈ fs, f ∉ [Field.loader, .station, .settle, .coverage, .landing]) →
      LandingInOrder s → LandingInOrder t := by exact fun h => absurd (by decide) h)
    (repair : ¬ Field.requester ∉ fs → RepairListInOrder s.requester → RepairListInOrder t.requester := by
      exact fun h => absurd (by decide) h) : KeepsInvariants s t where
  toKeepsButLanding := .of_writes w capacity canonical heldBack bus offer ring coverage repair
  landing := by_cases (landingInOrder_of_writes w) landing

end

/-! ## Rules for single blocks -/

/-- The port's own bounds (R165, R166). -/
def StatusPort.Fits (p : StatusPort) : Prop :=
  p.events.length ≤ 32 ∧ p.dropped ≤ 255 ∧ p.counters.length = 22 ∧ ∀ n ∈ p.counters, n ≤ 65535

theorem keeps_of_port {s t : State} (w : OnlyWrites [.port] s t) (h : s.port.Fits → t.port.Fits) : KeepsInvariants s t := by
  refine .of_writes w (capacity := fun _ c => ?_)
  obtain ⟨hevents, hdropped, hlength, hcounters⟩ := h ⟨c.events, c.dropped, c.counters⟩
  rw [eq_setPort_of_writes w]
  exact { c with events := hevents, dropped := hdropped, counters := ⟨hlength, hcounters⟩ }

theorem Fits_raise (c : Counter) (n : Nat) {s : State} (h : s.port.Fits) : (raise c n s).port.Fits := by
  obtain ⟨hevents, hdropped, hlength, hcounters⟩ := h
  refine ⟨hevents, hdropped, (raise_counters_length c n s).trans hlength, fun m hm => ?_⟩
  rcases List.mem_or_eq_of_mem_set hm with hm | rfl
  · exact hcounters m hm
  · exact saturate_le _ _ _

theorem Fits_post (k : EventKind) (f : Frame) (d : Byte) {s : State} (h : s.port.Fits) : (post k f d s).port.Fits := by
  obtain ⟨hevents, hdropped, hcounters⟩ := h
  rcases post_record k f d s with ⟨hlt, hd, he⟩ | ⟨-, he, hd⟩
  · refine ⟨?_, hd ▸ hdropped, post_counters k f d s ▸ hcounters⟩
    rw [he, List.length_append, List.length_singleton]
    omega
  · exact ⟨he ▸ hevents, hd ▸ Nat.min_le_left _ _, post_counters k f d s ▸ hcounters⟩

theorem raise_keeps (c : Counter) (n : Nat) (s : State) : KeepsInvariants s (raise c n s) :=
  keeps_of_port (raise_writes c n s) (Fits_raise c n)

theorem post_keeps (k : EventKind) (f : Frame) (d : Byte) (s : State) : KeepsInvariants s (post k f d s) :=
  keeps_of_port (post_writes k f d s) (Fits_post k f d)

end Sys2Proof.Machine
end

section
/-! The repair requester: what each operation does to the repair list, and that it keeps the list in order. -/

namespace Sys2Proof.Machine

/-! ## One entry, and lists of entries -/

/-- What R136 and R146 ask of one active entry. -/
def RepairEntry.InOrder (e : RepairEntry) : Prop :=
  e.tag < 8 ∧ e.state ≠ .closed ∧ 1 ≤ e.attempts ∧ e.attempts ≤ 3 ∧ e.wait < 6 ∧ e.backoff ≤ 4 ∧ e.code = none ∧
    (0 < e.backoff → e.state = .sent ∧ e.attempts < 3)

/-- From `r` to `r'` the repair list keeps its size and its order. -/
structure Requester.Keeps (r r' : Requester) : Prop where
  size : r.entries.length ≤ 4 → r'.entries.length ≤ 4
  inOrder : RepairListInOrder r → RepairListInOrder r'

namespace Requester.Keeps

variable {r r' r'' : Requester}

theorem refl : r.Keeps r := ⟨fun h => h, fun h => h⟩

theorem trans (a : r.Keeps r') (b : r'.Keeps r'') : r.Keeps r'' :=
  ⟨fun h => b.size (a.size h), fun h => b.inOrder (a.inOrder h)⟩

/-- The marks are no part of the list's order. -/
theorem of_entries (hentries : r'.entries = r.entries) (htag : r'.lastTag = r.lastTag) : r.Keeps r' := by
  refine ⟨fun h => hentries ▸ h, ?_⟩
  rintro ⟨tags, streams, size, lastTag, entry⟩
  constructor <;> simp only [hentries, htag] <;> assumption

end Requester.Keeps

/-- A rule for operations that write the requester and the port. -/
theorem keeps_of_requester {s t : State} (w : OnlyWrites [.requester, .port] s t) (hport : s.port.Fits → t.port.Fits)
    (hr : s.requester.Keeps t.requester) : KeepsInvariants s t := by
  refine .trans (t := s.setPort t.port) (keeps_of_port (setPort_writes _ _) hport) ?_
  have w' : OnlyWrites [.requester] (s.setPort t.port) t := by
    intro f hf
    by_cases hp : f = .port
    · subst hp
      rfl
    · have hsame := w f (by simpa [hp] using hf)
      cases f <;> first | exact hsame | exact absurd rfl hp
  refine .of_writes w' (capacity := fun _ c => ?_) (repair := fun _ => hr.inOrder)
  have hsize : t.requester.entries.length ≤ 4 := hr.size c.repairList
  have hstate : t = (s.setPort t.port).setRequester t.requester := by
    refine eq_of_same fun f => ?_
    by_cases hq : f = .requester
    · subst hq
      rfl
    · have hsame := w' f (by simpa using hq)
      cases f <;> first | exact hsame | exact absurd rfl hq
  rw [hstate]
  exact { c with repairList := hsize }

theorem Fits_of_same {s t : State} (h : t.port = s.port) : s.port.Fits → t.port.Fits := fun hs => h ▸ hs

/-! ## A list changed entry by entry, shortened, or longer by one -/

theorem RepairListInOrder.mapped {r : Requester} (h : RepairListInOrder r) (f : RepairEntry → RepairEntry)
    (hf : ∀ e ∈ r.entries, (f e).tag = e.tag ∧ (f e).stream = e.stream ∧ (f e).InOrder) :
    RepairListInOrder { r with entries := r.entries.map f } where
  tags := by
    have hsame : (r.entries.map f).map (·.tag) = r.entries.map (·.tag) := by
      rw [List.map_map]
      exact List.map_congr_left fun e he => (hf e he).1
    exact hsame ▸ h.tags
  streams := by
    have hsame : (r.entries.map f).map (·.stream) = r.entries.map (·.stream) := by
      rw [List.map_map]
      exact List.map_congr_left fun e he => (hf e he).2.1
    exact hsame ▸ h.streams
  size := by simpa using h.size
  lastTag := h.lastTag
  entry := by
    intro e he
    obtain ⟨x, hx, rfl⟩ := List.mem_map.1 he
    exact (hf x hx).2.2

theorem RepairListInOrder.filtered {r : Requester} (h : RepairListInOrder r) (p : RepairEntry → Bool) (marks : List Bool) :
    RepairListInOrder { r with entries := r.entries.filter p, unrepairable := marks } where
  tags := h.tags.sublist (List.filter_sublist.map _)
  streams := h.streams.sublist (List.filter_sublist.map _)
  size := (List.length_filter_le _ _).trans h.size
  lastTag := h.lastTag
  entry e he := h.entry e (List.mem_of_mem_filter he)

theorem RepairListInOrder.appended {r : Requester} (h : RepairListInOrder r) {e : RepairEntry} (hsize : r.entries.length < 4)
    (htag : ∀ x ∈ r.entries, x.tag ≠ e.tag) (hstream : ∀ x ∈ r.entries, x.stream ≠ e.stream) (he : e.InOrder) :
    RepairListInOrder { r with entries := r.entries ++ [e], lastTag := e.tag } where
  tags := by
    rw [List.map_append]
    refine List.Nodup.append h.tags (List.nodup_singleton _) fun a ha hb => ?_
    obtain ⟨x, hx, rfl⟩ := List.mem_map.1 ha
    exact htag x hx (by simpa using hb)
  streams := by
    rw [List.map_append]
    refine List.Nodup.append h.streams (List.nodup_singleton _) fun a ha hb => ?_
    obtain ⟨x, hx, rfl⟩ := List.mem_map.1 ha
    exact hstream x hx (by simpa using hb)
  size := by
    rw [List.length_append, List.length_singleton]
    omega
  lastTag := he.1
  entry x hx := by
    rcases List.mem_append.1 hx with hx | hx
    · exact h.entry x hx
    · exact List.mem_singleton.1 hx ▸ he

/-! ## Composition -/

theorem composeFor_of_not_wanted {s : State} {k : Nat} (h : ¬ Wanted s k) : composeFor s k = s := by
  rw [composeFor, if_neg (fun hm => h (mayCompose_iff_wanted.1 hm))]

theorem composeFor_of_wanted {s : State} {k : Nat} (h : Wanted s k) :
    composeFor s k = s.setRequester { s.requester with
      entries := s.requester.entries ++ [newEntry s k], lastTag := nextTag s } := by
  rw [composeFor, if_pos (mayCompose_iff_wanted.2 h)]

theorem composeFor_requester_keeps (s : State) (k : Nat) : s.requester.Keeps (composeFor s k).requester := by
  by_cases h : Wanted s k
  · have hroom := h.room
    have hnew := newEntry_composedFor h
    obtain ⟨i, -, -, hi, hfree, -⟩ := hnew.tag
    obtain ⟨hstate, hattempts, hwait, hbackoff, hcode⟩ := hnew.fresh
    rw [composeFor_of_wanted h]
    refine ⟨fun _ => by simpa using hroom, fun ho => ho.appended hroom hfree ?_ ?_⟩
    · rw [hnew.stream]
      exact h.idle
    · rw [RepairEntry.InOrder, hstate, hattempts, hwait, hbackoff, hcode, hi]
      exact ⟨Nat.mod_lt _ (by decide), by decide, by decide, by decide, by decide, by decide, rfl, by simp⟩
  · rw [composeFor_of_not_wanted h]
    exact .refl

theorem foldl_requester_keeps {α : Type} (g : State → α → State) (h : ∀ (s : State) a, s.requester.Keeps (g s a).requester)
    (l : List α) : ∀ s : State, s.requester.Keeps (l.foldl g s).requester := by
  induction l with
  | nil => exact fun _ => .refl
  | cons a l ih => exact fun s => (h s a).trans (ih _)

theorem gapScan_requester_keeps (s : State) : s.requester.Keeps (gapScan s).requester :=
  foldl_requester_keeps _ composeFor_requester_keeps _ _

theorem markPublished_requester_keeps (k : Nat) (s : State) : s.requester.Keeps (markPublished k s).requester :=
  .trans (r' := { s.requester with published := s.requester.published.set k true }) (.of_entries rfl rfl)
    (gapScan_requester_keeps (s.setRequester _))

/-! ## Closing and changing -/

theorem closeEntry_requester_keeps (c : ConditionCode) (e : RepairEntry) (s : State) :
    s.requester.Keeps (closeEntry c e s).requester := by
  rw [closeEntry_requester]
  refine .trans ?_ (gapScan_requester_keeps (s.setRequester _))
  exact ⟨fun h => (List.length_filter_le _ _).trans h, fun h => h.filtered _ _⟩

theorem postFailure_fits (c : ConditionCode) (e : RepairEntry) {s : State} (h : s.port.Fits) : (postFailure c e s).port.Fits := by
  unfold postFailure
  split
  · exact Fits_post _ _ _ h
  · exact h

theorem closeEntry_fits (c : ConditionCode) (e : RepairEntry) {s : State} (h : s.port.Fits) : (closeEntry c e s).port.Fits := by
  rw [(closeEntry_keeps c e s).2.2]
  exact postFailure_fits c e h

@[simp] theorem changeEntry_entries (tag : Nat) (f : RepairEntry → RepairEntry) (s : State) :
    (changeEntry tag f s).requester.entries = s.requester.entries.map (fun e => if e.tag = tag then f e else e) := rfl

@[simp] theorem changeEntry_port (tag : Nat) (f : RepairEntry → RepairEntry) (s : State) : (changeEntry tag f s).port = s.port := rfl

/-- A change of the entry with a tag keeps the list in order when it keeps that entry in order, its tag and its stream. -/
theorem changeEntry_requester_keeps (tag : Nat) (f : RepairEntry → RepairEntry) (s : State)
    (h : RepairListInOrder s.requester → ∀ e ∈ s.requester.entries, e.tag = tag → e.InOrder →
      (f e).tag = e.tag ∧ (f e).stream = e.stream ∧ (f e).InOrder) :
    s.requester.Keeps (changeEntry tag f s).requester := by
  refine ⟨fun hs => by simpa using hs, fun ho => ho.mapped _ fun e he => ?_⟩
  by_cases ht : e.tag = tag
  · rw [if_pos ht]
    exact h ho e he ht (ho.entry e he)
  · rw [if_neg ht]
    exact ⟨rfl, rfl, ho.entry e he⟩

theorem eq_of_tag_eq {l : List RepairEntry} (h : (l.map (·.tag)).Nodup) {a b : RepairEntry} (ha : a ∈ l) (hb : b ∈ l)
    (ht : a.tag = b.tag) : a = b := List.inj_on_of_nodup_map h ha hb ht

/-! ## What passes readback, claims, marks and STATUS bursts -/

theorem requestPassed_keeps (tag : Nat) (s : State) : KeepsInvariants s (requestPassed tag s) := by
  refine keeps_of_requester (requestPassed_writes tag s) (Fits_raise _ _) ?_
  refine changeEntry_requester_keeps tag _ s fun _ e _ _ ⟨h1, _, h3, h4, _, h6, h7, h8⟩ => ⟨rfl, rfl, ?_⟩
  exact ⟨h1, by simp, h3, h4, by simp, h6, h7, fun hb => ⟨rfl, (h8 hb).2⟩⟩

theorem closeEntry_keepsInvariants (c : ConditionCode) (e : RepairEntry) (s : State) : KeepsInvariants s (closeEntry c e s) :=
  keeps_of_requester (closeEntry_writes c e s) (closeEntry_fits c e) (closeEntry_requester_keeps c e s)

theorem takeClaim_keeps (k row : Nat) (s : State) : KeepsInvariants s (takeClaim k row s) := by
  unfold takeClaim
  split
  · exact .refl
  · split
    · split
      · exact closeEntry_keepsInvariants _ _ _
      · exact closeEntry_keepsInvariants _ _ _
      · exact .refl
    · exact .refl

theorem changeEntry_keeps (tag : Nat) (f : RepairEntry → RepairEntry) (s : State)
    (h : s.requester.Keeps (changeEntry tag f s).requester) : KeepsInvariants s (changeEntry tag f s) :=
  keeps_of_requester ((changeEntry_writes tag f s).widen (by decide)) (Fits_of_same rfl) h

theorem takeRepairMark_keeps (m : RepairMark) (s : State) : KeepsInvariants s (takeRepairMark m s) := by
  unfold takeRepairMark
  split
  · refine changeEntry_keeps _ _ _ (changeEntry_requester_keeps _ _ _ fun _ e _ _ he => ?_)
    by_cases hsent : e.state = .sent
    · rw [if_pos hsent]
      obtain ⟨h1, h2, h3, h4, -, h6, h7, h8⟩ := he
      exact ⟨rfl, rfl, h1, h2, h3, h4, by simp, h6, h7, h8⟩
    · rw [if_neg hsent]
      exact ⟨rfl, rfl, he⟩
  · exact .refl

/-- A REFUSED STATUS at an entry of the list. -/
theorem takeRefusal_keeps (e : RepairEntry) (s : State) (hmem : e ∈ s.requester.entries) : KeepsInvariants s (takeRefusal e s) := by
  unfold takeRefusal
  split
  next hsent =>
    rw [Bool.and_eq_true, decide_eq_true_eq, decide_eq_true_eq] at hsent
    split
    next hattempts =>
      refine changeEntry_keeps _ _ _ (changeEntry_requester_keeps _ _ _ fun ho x hx hxe he => ⟨rfl, rfl, ?_⟩)
      obtain rfl : x = e := eq_of_tag_eq ho.tags hx hmem hxe
      obtain ⟨h1, h2, h3, h4, h5, -, h7, -⟩ := he
      exact ⟨h1, h2, h3, h4, h5, by dsimp only; omega, h7, fun _ => ⟨hsent.1, hattempts⟩⟩
    next => exact closeEntry_keepsInvariants _ _ _
  next => exact .refl

theorem takeStatus_keeps (k : Nat) (m : StatusFields) (s : State) : KeepsInvariants s (takeStatus k m s) := by
  unfold takeStatus
  split
  · exact .refl
  · split
    · exact raise_keeps _ _ _
    next e hfind =>
      split
      · exact closeEntry_keepsInvariants _ _ _
      · exact closeEntry_keepsInvariants _ _ _
      · exact closeEntry_keepsInvariants _ _ _
      · exact closeEntry_keepsInvariants _ _ _
      · exact takeRefusal_keeps e s (List.mem_of_find?_eq_some hfind)

theorem gapScan_keepsInvariants (s : State) : KeepsInvariants s (gapScan s) :=
  keeps_of_requester ((gapScan_writes s).widen (by decide)) (Fits_of_same (gapScan_writes s .port (by decide)))
    (gapScan_requester_keeps s)

theorem markPublished_keeps (k : Nat) (s : State) : KeepsInvariants s (markPublished k s) :=
  keeps_of_requester ((markPublished_writes k s).widen (by decide)) (Fits_of_same (markPublished_writes k s .port (by decide)))
    (markPublished_requester_keeps k s)

theorem requesterTakeState_keeps (k : Nat) (m : StateFields) (s : State) : KeepsInvariants s (requesterTakeState k m s) := by
  unfold requesterTakeState
  split
  · split
    · exact markPublished_keeps _ _
    · exact .refl
  · exact .refl

theorem overtakeEntries_keeps (s : State) : KeepsInvariants s (overtakeEntries s) := by
  refine keeps_of_requester ((overtakeEntries_writes s).widen (by decide)) (Fits_of_same rfl) ⟨fun _ => Nat.zero_le 4, ?_⟩
  exact fun h => ⟨List.nodup_nil, List.nodup_nil, Nat.zero_le 4, h.lastTag, fun e he => absurd he (by simp [overtakeEntries])⟩

theorem ownPublished_keeps (s : State) : KeepsInvariants s (ownPublished s) := by
  unfold ownPublished
  split
  · exact markPublished_keeps _ _
  · exact gapScan_keepsInvariants _

/-! ## A round start (R142, R146, R147) -/

theorem ageEntry_of_composed {e : RepairEntry} (h : e.state ≠ .sent) (s : State) : ageEntry e s = s := by
  rw [ageEntry, if_pos h]

theorem ageEntry_of_backoff_one {e : RepairEntry} (h : e.state = .sent) (hb : e.backoff = 1) (s : State) :
    ageEntry e s = changeEntry e.tag RepairEntry.recomposed s := by
  simp [ageEntry, h, hb]

theorem ageEntry_of_backoff {e : RepairEntry} (h : e.state = .sent) (hb : 2 ≤ e.backoff) (s : State) :
    ageEntry e s = changeEntry e.tag (fun e => { e with backoff := e.backoff - 1 }) s := by
  have h1 : e.backoff ≠ 1 := by omega
  have h0 : 0 < e.backoff := by omega
  simp [ageEntry, h, h0, h1]

theorem ageEntry_of_wait {e : RepairEntry} (h : e.state = .sent) (hb : e.backoff = 0) (hw : e.wait < 5) (s : State) :
    ageEntry e s = changeEntry e.tag (fun e => { e with wait := e.wait + 1 }) s := by
  have ht : e.timesOut = false := by simp [RepairEntry.timesOut, Config.waitLimit]; omega
  simp [ageEntry, h, hb, ht]

theorem ageEntry_of_timeout {e : RepairEntry} (h : e.state = .sent) (hb : e.backoff = 0) (hw : 5 ≤ e.wait) (s : State) :
    ageEntry e s =
      if e.attempts < 3 then changeEntry e.tag RepairEntry.recomposed s else closeEntry .noResponse e s := by
  have ht : e.timesOut = true := by simp [RepairEntry.timesOut, Config.waitLimit, h, hb]; omega
  rw [ageEntry, if_neg (not_not.2 h), if_neg (by omega), if_pos ht]
  rfl

/-- The ways a round start can act on an entry that is in order. -/
theorem ageEntry_cases {e : RepairEntry} (he : e.InOrder) (s : State) :
    ageEntry e s = s ∨ (∃ f, ageEntry e s = changeEntry e.tag f s ∧ (f e).tag = e.tag ∧ (f e).stream = e.stream ∧ (f e).InOrder) ∨
      ageEntry e s = closeEntry .noResponse e s := by
  obtain ⟨h1, h2, h3, h4, h5, h6, h7, h8⟩ := he
  by_cases hsent : e.state = .sent
  swap
  · exact .inl (ageEntry_of_composed hsent s)
  have again : e.attempts < 3 → e.recomposed.InOrder := fun h =>
    ⟨h1, by simp [RepairEntry.recomposed], Nat.le_add_left 1 _, h, by simp [RepairEntry.recomposed],
      by simp [RepairEntry.recomposed], h7, by simp [RepairEntry.recomposed]⟩
  rcases Nat.lt_or_ge e.backoff 1 with hb | hb
  · have hb : e.backoff = 0 := by omega
    rcases Nat.lt_or_ge e.wait 5 with hw | hw
    · refine .inr (.inl ⟨_, ageEntry_of_wait hsent hb hw s, rfl, rfl, h1, h2, h3, h4, ?_, h6, h7, h8⟩)
      dsimp only
      omega
    · rw [ageEntry_of_timeout hsent hb hw]
      split
      next h => exact .inr (.inl ⟨_, rfl, rfl, rfl, again h⟩)
      next => exact .inr (.inr rfl)
  · rcases Nat.lt_or_ge e.backoff 2 with hb2 | hb2
    · exact .inr (.inl ⟨_, ageEntry_of_backoff_one hsent (by omega) s, rfl, rfl, again (h8 hb).2⟩)
    · refine .inr (.inl ⟨_, ageEntry_of_backoff hsent hb2 s, rfl, rfl, h1, h2, h3, h4, h5, ?_, h7, fun _ => h8 hb⟩)
      dsimp only
      omega

/-- A round start at one entry leaves the entries of other tags. -/
theorem mem_ageEntry_of_ne {e x : RepairEntry} {s : State} (hx : x ∈ s.requester.entries) (ht : x.tag ≠ e.tag) :
    x ∈ (ageEntry e s).requester.entries := by
  have hchange : ∀ f, x ∈ (changeEntry e.tag f s).requester.entries := fun f =>
    List.mem_map.2 ⟨x, hx, if_neg ht⟩
  have hclose : x ∈ (closeEntry .noResponse e s).requester.entries :=
    (closeEntry_keeps .noResponse e s).1.subset (List.mem_filter.2 ⟨hx, by simpa using ht⟩)
  unfold ageEntry
  split
  · exact hx
  split
  · split <;> exact hchange _
  split
  · split
    · exact hchange _
    · exact hclose
  · exact hchange _

theorem ageEntry_requester_size (e : RepairEntry) {s : State} (h : s.requester.entries.length ≤ 4) :
    (ageEntry e s).requester.entries.length ≤ 4 := by
  have hchange : ∀ f, (changeEntry e.tag f s).requester.entries.length ≤ 4 := fun f => by simpa using h
  unfold ageEntry
  split
  · exact h
  split
  · split <;> exact hchange _
  split
  · split
    · exact hchange _
    · exact (closeEntry_requester_keeps _ _ _).size h
  · exact hchange _

theorem ageEntry_inOrder {e : RepairEntry} {s : State} (ho : RepairListInOrder s.requester) (he : e ∈ s.requester.entries) :
    RepairListInOrder (ageEntry e s).requester := by
  rcases ageEntry_cases (ho.entry e he) s with h | ⟨f, h, hf⟩ | h
  · rwa [h]
  · rw [h]
    refine (changeEntry_requester_keeps e.tag f s fun _ x hx hxe _ => ?_).inOrder ho
    obtain rfl : x = e := eq_of_tag_eq ho.tags hx he hxe
    exact hf
  · rw [h]
    exact (closeEntry_requester_keeps _ _ _).inOrder ho

theorem ageEntry_fits (e : RepairEntry) {s : State} (h : s.port.Fits) : (ageEntry e s).port.Fits := by
  unfold ageEntry
  split
  · exact h
  split
  · split <;> exact h
  split
  · split
    · exact h
    · exact closeEntry_fits _ _ h
  · exact h

/-- The entries as they stood at the round start, taken one after another: each still stands when its turn comes. -/
theorem foldl_ageEntry_inOrder (l : List RepairEntry) (hl : (l.map (·.tag)).Nodup) :
    ∀ s : State, RepairListInOrder s.requester → (∀ e ∈ l, e ∈ s.requester.entries) →
      RepairListInOrder (l.foldl (fun s e => ageEntry e s) s).requester := by
  induction l with
  | nil => exact fun _ ho _ => ho
  | cons e l ih =>
    intro s ho hmem
    obtain ⟨hnot, hl⟩ := List.nodup_cons.1 hl
    refine ih hl _ (ageEntry_inOrder ho (hmem e List.mem_cons_self)) fun x hx => ?_
    exact mem_ageEntry_of_ne (hmem x (List.mem_cons_of_mem _ hx)) fun ht => hnot (List.mem_map.2 ⟨x, hx, ht⟩)

/-- What every operation of a fold keeps, the fold keeps. -/
theorem foldl_induct {α : Type} {p : State → Prop} (g : State → α → State) (h : ∀ s a, p s → p (g s a)) (l : List α) :
    ∀ s, p s → p (l.foldl g s) := by
  induction l with
  | nil => exact fun _ hs => hs
  | cons a l ih => exact fun s hs => ih _ (h s a hs)

theorem requesterRoundStart_keeps (s : State) : KeepsInvariants s (requesterRoundStart s) :=
  keeps_of_requester (requesterRoundStart_writes s)
    (foldl_induct (p := fun t => t.port.Fits) _ (fun _ e h => ageEntry_fits e h) _ s)
    ⟨foldl_induct (p := fun t => t.requester.entries.length ≤ 4) _ (fun _ e h => ageEntry_requester_size e h) _ s,
      fun ho => foldl_ageEntry_inOrder _ ho.tags s ho fun _ he => he⟩

end Sys2Proof.Machine
end

section
/-! The source side: what the capture unit, the retain ring and the publish queue keep. -/

namespace Sys2Proof.Machine

/-! ## The image and the own stream rest on the loader -/

theorem image_of_writes {fs : List Field} {s t : State} (w : OnlyWrites fs s t) (h : Field.loader ∉ fs) : t.image = s.image := by
  have hl : t.loader = s.loader := w .loader h
  simp only [State.image, hl]

theorem digest_of_writes {fs : List Field} {s t : State} (w : OnlyWrites fs s t) (h : Field.loader ∉ fs) : t.digest = s.digest := by
  have hl : t.loader = s.loader := w .loader h
  simp only [State.digest, hl]

theorem ownEntry_of_image {s t : State} (h : t.image = s.image) : ownEntry t = ownEntry s := by
  simp only [ownEntry, h]

theorem ownEntry_of_writes {fs : List Field} {s t : State} (w : OnlyWrites fs s t) (h : Field.loader ∉ fs) :
    ownEntry t = ownEntry s := ownEntry_of_image (image_of_writes w h)

theorem isMember_of_writes {fs : List Field} {s t : State} (w : OnlyWrites fs s t) (h : Field.station ∉ fs) :
    t.isMember = s.isMember := by
  have hs : t.station = s.station := w .station h
  simp only [State.isMember, hs]

theorem isMember_iff {s : State} : s.isMember = true ↔ s.station.state = .member := by simp [State.isMember]

theorem isMember_eq_false_iff {s : State} : s.isMember = false ↔ s.station.state ≠ .member := by simp [State.isMember]

theorem isListen_iff {s : State} : s.isListen = true ↔ s.station.state = .listen := by simp [State.isListen]

theorem isIsolated_iff {s : State} : s.isIsolated = true ↔ s.station.state = .isolated := by simp [State.isIsolated]

/-! ## Rules for the source's blocks -/

/-- The bounds after an operation of the capture unit. -/
theorem WithinCapacity.of_source_writes {s t : State} (w : OnlyWrites [.capture, .ring, .publishQueue, .port] s t)
    (c : WithinCapacity s) (hring : t.ring.length ≤ 1024) (hqueue : t.publishQueue.length ≤ 64) (hport : t.port.Fits)
    (hsilence : t.capture.silence ≤ 255) (hrows : t.capture.rowCount ≤ (ownEntry s).height)
    (hcapturing : t.capture.state = .capturing → t.capture.rowCount < (ownEntry s).height)
    (hloading : s.station.state = .loading → t.capture.rowCount = 0 ∧ t.capture.state ≠ .capturing) : WithinCapacity t := by
  have hown := ownEntry_of_writes w (by decide)
  have hstate : t = (((s.setCapture t.capture).setRing t.ring).setPublishQueue t.publishQueue).setPort t.port := by
    refine eq_of_same fun f => ?_
    by_cases hf : f ∈ [Field.capture, .ring, .publishQueue, .port]
    · fin_cases hf <;> rfl
    · have hsame := w f hf
      cases f <;> first | exact hsame | exact absurd (by decide) hf
  obtain ⟨hevents, hdropped, hcounters⟩ := hport
  have hown' : ownEntry ((((s.setCapture t.capture).setRing t.ring).setPublishQueue t.publishQueue).setPort t.port) = ownEntry s :=
    rfl
  rw [hstate]
  exact { c with
    ring := hring, publishQueue := hqueue, events := hevents, dropped := hdropped, counters := hcounters, silence := hsilence,
    rowCount := hrows, rowCountCapturing := hcapturing, loading := fun h => ⟨(c.loading h).1, hloading h⟩ }

/-- A change of the capture unit that leaves capture state, row count, offer and published flag. -/
theorem keeps_of_capture {s t : State} (w : OnlyWrites [.capture] s t) (hstate : t.capture.state = s.capture.state)
    (hrows : t.capture.rowCount = s.capture.rowCount) (hoffer : t.capture.offer = s.capture.offer)
    (hpublished : t.capture.published = s.capture.published)
    (hsilence : s.capture.silence ≤ 255 → t.capture.silence ≤ 255)
    (htaken : s.capture.state = .capturing → s.capture.disposition = .taken → t.capture.disposition = .taken) :
    KeepsInvariants s t := by
  have hown := ownEntry_of_writes w (by decide)
  have hmember := isMember_of_writes w (by decide)
  have hstation : t.station = s.station := w .station (by decide)
  have hring : t.ring = s.ring := w .ring (by decide)
  have hqueue : t.publishQueue = s.publishQueue := w .publishQueue (by decide)
  have hport : t.port = s.port := w .port (by decide)
  refine .of_writes w (capacity := fun _ c => ?_) (offer := fun _ o => ?_) (ring := fun _ _ r => ?_)
  · refine c.of_source_writes (w.widen (by decide)) (hring ▸ c.ring) (hqueue ▸ c.publishQueue)
      (hport ▸ ⟨c.events, c.dropped, c.counters⟩) (hsilence c.silence) (hrows ▸ c.rowCount) ?_ fun h => ?_
    · rw [hstate, hrows]
      exact c.rowCountCapturing
    · rw [hstate, hrows]
      exact (c.loading h).2
  · obtain ⟨odormant, opublished, ocapturing, owaiting, ooutside⟩ := o
    constructor
    · rwa [hoffer, hstate]
    · rwa [hpublished, hstate, hqueue]
    · rw [hstate]
      exact fun h => htaken h (ocapturing h)
    · rwa [hstate, hrows]
    · rwa [hstation, hstate]
  · obtain ⟨rorder, rproduced, routside, rwaiting⟩ := r
    constructor <;> simp only [hring, hown, hmember, hstate, hrows] <;> assumption

/-- The publish queue shortened. -/
theorem setPublishQueue_drop_keeps (n : Nat) (s : State) : KeepsInvariants s (s.setPublishQueue (s.publishQueue.drop n)) := by
  refine .of_writes (setPublishQueue_writes _ _) (capacity := fun _ c => ?_) (offer := fun _ o => ?_)
  · refine { c with publishQueue := le_trans ?_ c.publishQueue }
    show (s.publishQueue.drop n).length ≤ _
    rw [List.length_drop]
    exact Nat.sub_le _ _
  · refine { o with published := fun h => ⟨(o.published h).1, ?_⟩ }
    show s.publishQueue.drop n = []
    rw [(o.published h).2, List.drop_nil]

/-! ## The published flag (R94) -/

theorem publishedConditions_iff {s : State} : publishedConditions s = true ↔
    s.capture.offer ≠ none ∧ s.capture.state = .holding ∧ s.publishQueue = [] := by
  simp [publishedConditions, and_assoc, Option.isSome_iff_ne_none]

theorem setPublished_keeps {s : State} (h : publishedConditions s = true) :
    KeepsInvariants s (s.setCapture { s.capture with published := true }) := by
  obtain ⟨-, hstate, hqueue⟩ := publishedConditions_iff.1 h
  refine .of_writes (setCapture_writes _ _) (capacity := fun _ c => { c with }) (offer := fun _ o => ?_)
    (ring := fun _ _ r => { r with })
  exact { o with published := fun _ => ⟨hstate, hqueue⟩ }

theorem checkPublished_keeps (s : State) : KeepsInvariants s (checkPublished s) := by
  unfold checkPublished
  split
  next h =>
    have hset := setPublished_keeps (Bool.and_eq_true_iff.1 h).1
    dsimp only
    split
    · exact hset.trans (ownPublished_keeps _)
    · exact hset
  next => exact .refl

theorem freshPassed_keeps (s : State) : KeepsInvariants s (freshPassed s) :=
  (setPublishQueue_drop_keeps 1 s).trans (checkPublished_keeps _)

/-! ## Shape faults and the input state -/

theorem postShapeFault_keeps (d : Byte) (s : State) : KeepsInvariants s (postShapeFault d s) := by
  unfold postShapeFault
  split
  · exact .refl
  · exact (post_keeps _ _ _ _).trans
      (keeps_of_capture (setCapture_writes _ _) rfl rfl rfl rfl (fun h => h) (fun _ h => h))

theorem inputFrameStart_keeps (s : State) : KeepsInvariants s (inputFrameStart s) := by
  unfold inputFrameStart
  split
  · refine .trans ?_ (post_keeps _ _ _ _)
    exact keeps_of_capture (setCapture_writes _ _) rfl rfl rfl rfl (fun _ => Nat.zero_le _) (fun _ h => h)
  · exact keeps_of_capture (setCapture_writes _ _) rfl rfl rfl rfl (fun _ => Nat.zero_le _) (fun _ h => h)

theorem newInputFrame_keeps (s : State) : KeepsInvariants s (newInputFrame s) :=
  keeps_of_capture (setCapture_writes _ _) rfl rfl rfl rfl (fun h => h) (fun _ h => h)

theorem skipInputFrame_keeps {s : State} (h : s.capture.state ≠ .capturing) : KeepsInvariants s (skipInputFrame s) := by
  refine .trans ?_ (raise_keeps _ _ _)
  exact keeps_of_capture (setCapture_writes _ _) rfl rfl rfl rfl (fun h => h) (fun hc => absurd hc h)

/-! ## Rows entering the ring (R97) -/

/-- The ring entry of a piece (R97). -/
def Piece.ringEntry (p : Piece) : RingEntry :=
  { row := p.row, index := p.index, count := p.count, fill := p.fill, payload := p.payload }

theorem enterRing_length {r : List RingEntry} (p : Piece) (h : r.length ≤ 1024) : (enterRing r p).length ≤ 1024 := by
  unfold enterRing Config.retainRingSize
  rw [List.length_append, List.length_singleton]
  split
  · omega
  · rw [List.length_drop]
    omega

theorem foldl_enterRing_length (l : List Piece) : ∀ r : List RingEntry, r.length ≤ 1024 → (l.foldl enterRing r).length ≤ 1024 := by
  induction l with
  | nil => exact fun _ h => h
  | cons p l ih => exact fun r h => ih _ (enterRing_length p h)

theorem foldl_enterRing_sublist (l : List Piece) :
    ∀ r : List RingEntry, (l.foldl enterRing r).Sublist (r ++ l.map Piece.ringEntry) := by
  induction l with
  | nil => intro r; simp
  | cons p l ih =>
    intro r
    have hfirst : (enterRing r p).Sublist (r ++ [p.ringEntry]) := by
      unfold enterRing
      refine List.Sublist.append ?_ (List.Sublist.refl _)
      split
      · exact List.Sublist.refl _
      · exact List.drop_sublist _ _
    have hrest := (ih (enterRing r p)).trans (hfirst.append_right (l.map Piece.ringEntry))
    simpa using hrest

/-- Capture order (R97). -/
def RingEntry.Before (a b : RingEntry) : Prop := a.row < b.row ∨ (a.row = b.row ∧ a.index < b.index)

/-- The ring stands in capture order and holds rows produced already. -/
def RingStacked (s : State) : Prop :=
  s.ring.Pairwise RingEntry.Before ∧ ∀ e ∈ s.ring, e.row < (ownEntry s).y0 + s.capture.rowCount

@[simp] theorem produceRow_ring (l : List Piece) (s : State) : (produceRow l s).ring = l.foldl enterRing s.ring := by
  unfold produceRow
  rw [show ∀ u : State, (advanceRow u).ring = u.ring from fun _ => rfl]
  exact (offerRow_writes l _ .ring (by decide))

theorem offerRow_capture (l : List Piece) (s : State) : (offerRow l s).capture = s.capture :=
  offerRow_writes l s .capture (by decide)

@[simp] theorem produceRow_capture (l : List Piece) (s : State) : (produceRow l s).capture = { s.capture with
    rowCount := s.capture.rowCount + 1,
    state := if s.capture.rowCount + 1 = (ownEntry s).height then .holding else s.capture.state } := by
  have hown : ownEntry (offerRow l (s.setRing (l.foldl enterRing s.ring))) = ownEntry s :=
    (ownEntry_of_writes (s := s.setRing (l.foldl enterRing s.ring)) (offerRow_writes l _) (by decide)).trans rfl
  have hcapture : (offerRow l (s.setRing (l.foldl enterRing s.ring))).capture = s.capture := offerRow_capture _ _
  simp only [produceRow, advanceRow, State.setCapture_capture, hown, hcapture]

theorem produceRow_publishQueue_length (l : List Piece) {s : State} (h : s.publishQueue.length ≤ 64) :
    (produceRow l s).publishQueue.length ≤ 64 := by
  unfold produceRow
  rw [show ∀ u : State, (advanceRow u).publishQueue = u.publishQueue from fun _ => rfl]
  unfold offerRow Config.publishQueueSize
  split
  next hroom =>
    simp only [State.setPublishQueue_publishQueue, List.length_append, State.setRing_publishQueue] at hroom ⊢
    omega
  next => exact h

theorem produceRow_fits (l : List Piece) {s : State} (h : s.port.Fits) : (produceRow l s).port.Fits := by
  unfold produceRow
  rw [show ∀ u : State, (advanceRow u).port = u.port from fun _ => rfl]
  unfold offerRow
  split
  · exact h
  · exact Fits_raise _ _ h

/-- The pieces of the row being produced follow everything in the ring. -/
theorem RingStacked.produceRow {s : State} (h : RingStacked s) (fill : Bool) (pixels : List Pixel) :
    RingStacked (produceRow (rowPieces s fill pixels) s) := by
  obtain ⟨horder, hproduced⟩ := h
  have hrow : ∀ e ∈ (rowPieces s fill pixels).map Piece.ringEntry, e.row = (ownEntry s).y0 + s.capture.rowCount := by
    intro e he
    simp only [rowPieces, List.map_map, List.mem_map] at he
    obtain ⟨i, -, rfl⟩ := he
    rfl
  have hnew : ((rowPieces s fill pixels).map Piece.ringEntry).Pairwise RingEntry.Before := by
    simp only [rowPieces, List.map_map, List.pairwise_map]
    exact List.pairwise_lt_range.imp fun hlt => .inr ⟨rfl, hlt⟩
  have hall : (s.ring ++ (rowPieces s fill pixels).map Piece.ringEntry).Pairwise RingEntry.Before :=
    List.pairwise_append.2 ⟨horder, hnew, fun a ha b hb => .inl (hrow b hb ▸ hproduced a ha)⟩
  have hsub := foldl_enterRing_sublist (rowPieces s fill pixels) s.ring
  have hown : ownEntry (Machine.produceRow (rowPieces s fill pixels) s) = ownEntry s :=
    ownEntry_of_writes (produceRow_writes _ _) (by decide)
  refine ⟨?_, fun e he => ?_⟩
  · rw [produceRow_ring]
    exact hall.sublist hsub
  · rw [produceRow_ring] at he
    rw [hown, produceRow_capture]
    dsimp only
    rcases List.mem_append.1 (hsub.subset he) with he | he
    · have := hproduced e he
      omega
    · rw [hrow e he]
      omega

/-! ## Fill rows (R93) -/

theorem produceFillRow_capture (s : State) : (produceFillRow s).capture = { s.capture with
    rowCount := s.capture.rowCount + 1,
    state := if s.capture.rowCount + 1 = (ownEntry s).height then .holding else s.capture.state } := produceRow_capture _ _

/-- Fill rows raise the row count; of the rest of the capture unit they change the capture state alone. -/
theorem produceFillRows_capture (n : Nat) : ∀ s : State, ∃ c, (produceFillRows n s).capture =
    { s.capture with rowCount := s.capture.rowCount + n, state := c } := by
  induction n with
  | zero => exact fun s => ⟨s.capture.state, rfl⟩
  | succ n ih =>
    intro s
    obtain ⟨c, hc⟩ := ih (produceFillRow s)
    refine ⟨c, hc.trans ?_⟩
    rw [produceFillRow_capture]
    simp only [Nat.add_assoc, Nat.add_comm 1 n]

theorem produceFillRows_induct {p : State → Prop} (h : ∀ s, p s → p (produceFillRow s)) (n : Nat) :
    ∀ s, p s → p (produceFillRows n s) := by
  induction n with
  | zero => exact fun _ hs => hs
  | succ n ih => exact fun s hs => ih _ (h s hs)

@[simp] theorem endCaptureWithFill_capture (s : State) : (endCaptureWithFill s).capture = { s.capture with
    rowCount := s.capture.rowCount + ((ownEntry s).height - s.capture.rowCount), state := .holding } := by
  obtain ⟨c, hc⟩ := produceFillRows_capture ((ownEntry s).height - s.capture.rowCount) s
  simp only [endCaptureWithFill, setCaptureState, State.setCapture_capture, hc]

/-- A capture in progress ended with fill rows. -/
theorem endCaptureWithFill_keeps {s : State} (h : s.capture.state = .capturing) : KeepsInvariants s (endCaptureWithFill s) := by
  have w := endCaptureWithFill_writes s
  have hcapture := endCaptureWithFill_capture s
  have hmember := isMember_of_writes w (by decide)
  have hstation : (endCaptureWithFill s).station = s.station := w .station (by decide)
  have hown := ownEntry_of_writes w (by decide)
  refine .of_writes w (capacity := fun _ c => ?_) (offer := fun _ o => ?_) (ring := fun _ o r => ?_)
  · have hlt := c.rowCountCapturing h
    refine c.of_source_writes w ?_ ?_ ?_ ?_ ?_ ?_ fun hl => absurd h (c.loading hl).2.2
    · exact produceFillRows_induct (p := fun t => t.ring.length ≤ 1024)
        (fun t ht => by
          show (produceRow (rowPieces t true []) t).ring.length ≤ 1024
          rw [produceRow_ring]
          exact foldl_enterRing_length _ _ ht) _ s c.ring
    · exact produceFillRows_induct (p := fun t => t.publishQueue.length ≤ 64)
        (fun t ht => produceRow_publishQueue_length _ ht) _ s c.publishQueue
    · exact produceFillRows_induct (p := fun t => t.port.Fits)
        (fun t ht => Fits_raise _ _ (produceRow_fits _ ht)) _ s ⟨c.events, c.dropped, c.counters⟩
    · rw [hcapture]
      exact c.silence
    · rw [hcapture]
      dsimp only
      omega
    · rw [hcapture]
      exact fun hc => absurd hc (by simp)
  · have hnot : s.capture.published ≠ true := fun hp => absurd (h.symm.trans (o.published hp).1) (by simp)
    constructor <;> rw [hcapture]
    · refine ⟨fun hn => ?_, fun hd => absurd hd (by simp)⟩
      exact absurd (h.symm.trans (o.dormant.1 hn)) (by simp)
    · exact fun hp => absurd hp hnot
    · exact fun hc => absurd hc (by simp)
    · exact fun hc => absurd hc (by simp)
    · rw [hstation]
      exact fun hm => absurd (h.symm.trans (o.outsideMember hm)) (by simp)
  · have hm : s.station.state = .member := by
      by_contra hm
      exact absurd (h.symm.trans (o.outsideMember hm)) (by simp)
    have hstacked : RingStacked (endCaptureWithFill s) :=
      produceFillRows_induct (p := RingStacked) (fun t ht => ht.produceRow true []) _ s ⟨r.order, r.produced⟩
    refine ⟨hstacked.1, hstacked.2, ?_, ?_⟩
    · rw [hmember, isMember_eq_false_iff]
      exact fun hn => absurd hm hn
    · rw [hcapture]
      exact fun hc => absurd hc (by simp)

/-! ## A captured row (R90) -/

theorem produceRow_keeps {s : State} (h : s.capture.state = .capturing) (pixels : List Pixel) :
    KeepsInvariants s (produceRow (rowPieces s false pixels) s) := by
  have w := produceRow_writes (rowPieces s false pixels) s
  have hcapture := produceRow_capture (rowPieces s false pixels) s
  have hmember := isMember_of_writes w (by decide)
  have hstation : (produceRow (rowPieces s false pixels) s).station = s.station := w .station (by decide)
  refine .of_writes w (capacity := fun _ c => ?_) (offer := fun _ o => ?_) (ring := fun _ o r => ?_)
  · have hlt := c.rowCountCapturing h
    refine c.of_source_writes w ?_ (produceRow_publishQueue_length _ c.publishQueue)
      (produceRow_fits _ ⟨c.events, c.dropped, c.counters⟩) ?_ ?_ ?_ fun hl => absurd h (c.loading hl).2.2
    · rw [produceRow_ring]
      exact foldl_enterRing_length _ _ c.ring
    · rw [hcapture]
      exact c.silence
    · rw [hcapture]
      exact hlt
    · rw [hcapture]
      dsimp only
      split
      · exact fun hc => absurd hc (by simp)
      · omega
  · have hnot : s.capture.published ≠ true := fun hp => absurd (h.symm.trans (o.published hp).1) (by simp)
    have hdormant : s.capture.offer ≠ none := fun hn => absurd (h.symm.trans (o.dormant.1 hn)) (by simp)
    constructor <;> rw [hcapture] <;> dsimp only
    · refine ⟨fun hn => absurd hn hdormant, fun hd => ?_⟩
      split at hd
      · exact absurd hd (by simp)
      · exact absurd (h.symm.trans hd) (by simp)
    · exact fun hp => absurd hp hnot
    · exact fun _ => o.capturing h
    · split
      · exact fun hc => absurd hc (by simp)
      · exact fun hw => absurd (h.symm.trans hw) (by simp)
    · rw [hstation]
      exact fun hm => absurd (h.symm.trans (o.outsideMember hm)) (by simp)
  · have hm : s.station.state = .member := by
      by_contra hm
      exact absurd (h.symm.trans (o.outsideMember hm)) (by simp)
    have hstacked : RingStacked (produceRow (rowPieces s false pixels) s) := RingStacked.produceRow ⟨r.order, r.produced⟩ _ _
    refine ⟨hstacked.1, hstacked.2, ?_, ?_⟩
    · rw [hmember, isMember_eq_false_iff]
      exact fun hn => absurd hm hn
    · rw [hcapture]
      dsimp only
      split
      · exact fun hc => absurd hc (by simp)
      · exact fun hw => absurd (h.symm.trans hw) (by simp)

theorem postShapeFault_capture (d : Byte) (s : State) :
    (postShapeFault d s).capture = { s.capture with shapeFaultPosted := true } := by
  unfold postShapeFault
  split
  next h => rw [← h]
  next =>
    have hp : (post .shapeFault (shapeFaultFrame s) d s).capture = s.capture := post_writes _ _ _ _ .capture (by decide)
    simp [hp]

theorem captureRow_keeps {s : State} (h : s.capture.state = .capturing) (pixels : List Pixel) :
    KeepsInvariants s (captureRow pixels s) := by
  have hfault : ∀ d, (postShapeFault d s).capture.state = .capturing := fun d => by rw [postShapeFault_capture]; exact h
  unfold captureRow
  refine .trans ?_ (checkPublished_keeps _)
  split
  · exact (postShapeFault_keeps 1 s).trans (produceRow_keeps (hfault 1) _)
  · split
    · exact (postShapeFault_keeps 2 s).trans (produceRow_keeps (hfault 2) _)
    · exact produceRow_keeps h _

theorem memberRow_keeps (pixels : List Pixel) (s : State) : KeepsInvariants s (memberRow pixels s) := by
  have hsilence : KeepsInvariants s
      (if s.capture.state = .capturing then s.setCapture { s.capture with silence := 0 } else s) := by
    split
    · exact keeps_of_capture (setCapture_writes _ _) rfl rfl rfl rfl (fun _ => Nat.zero_le _) (fun _ h => h)
    · exact .refl
  unfold memberRow
  dsimp only
  refine .trans hsilence ?_
  generalize (if s.capture.state = .capturing then s.setCapture { s.capture with silence := 0 } else s) = t
  split
  · exact .refl
  · split
    next hc => exact captureRow_keeps hc _
    next => exact postShapeFault_keeps _ _
    next => exact .refl
    next => exact .refl

theorem takeRow_keeps (pixels : List Pixel) (s : State) : KeepsInvariants s (takeRow pixels s) := by
  unfold takeRow
  split
  · exact memberRow_keeps _ _
  · exact .refl

/-! ## A frame start (R89) -/

/-- WAITING becomes CAPTURING: the offered stream has a row. -/
theorem startCapture_keeps {s : State} (hw : s.capture.state = .waiting) (hsource : s.image.sourceRole = true)
    (hm : s.station.state = .member) :
    KeepsInvariants s (s.setCapture { s.capture with state := .capturing, rowCount := 0, disposition := .taken }) := by
  have hnot : ¬ s.station.state = .loading := by rw [hm]; simp
  refine .of_writes (setCapture_writes _ _) (capacity := fun _ c => ?_) (offer := fun _ o => ?_) (ring := fun _ _ r => ?_)
  · exact { c with
      rowCount := Nat.zero_le _, rowCountCapturing := fun _ => c.streamHeight hsource, loading := fun h => absurd h hnot }
  · refine ⟨⟨fun hn => absurd (hw.symm.trans (o.dormant.1 hn)) (by simp), fun hd => absurd hd (by simp)⟩, fun hp => ?_,
      fun _ => rfl, fun hc => absurd hc (by simp), fun h => absurd hm h⟩
    exact absurd (hw.symm.trans (o.published hp).1) (by simp)
  · have hempty := r.waiting hw
    constructor <;> simp [hempty]

theorem captureFrameStart_keeps {s : State} (hsource : s.image.sourceRole = true) (hm : s.station.state = .member) :
    KeepsInvariants s (captureFrameStart s) := by
  unfold captureFrameStart
  split
  next h => exact startCapture_keeps h hsource hm
  next h =>
    have hc : (postShapeFault 4 s).capture.state = .capturing := by rw [postShapeFault_capture]; exact h
    refine .trans ?_ (checkPublished_keeps _)
    exact ((postShapeFault_keeps 4 s).trans (endCaptureWithFill_keeps hc)).trans (skipInputFrame_keeps (by simp))
  next h => exact skipInputFrame_keeps (by simp [h])
  next h => exact skipInputFrame_keeps (by simp [h])

theorem takeFrameStart_keeps (s : State) : KeepsInvariants s (takeFrameStart s) := by
  unfold takeFrameStart
  split
  next hsource =>
    split
    next => exact .refl
    next => exact (inputFrameStart_keeps s).trans (newInputFrame_keeps _)
    next hm =>
      have w := inputFrameStart_writes s
      have hstation : (inputFrameStart s).station = s.station := w .station (by decide)
      refine ((inputFrameStart_keeps s).trans (captureFrameStart_keeps ?_ ?_)).trans (newInputFrame_keeps _)
      · rw [image_of_writes w (by decide)]
        exact hsource
      · rw [hstation]
        exact hm
    next hi =>
      refine .trans ?_ (newInputFrame_keeps _)
      refine .of_writes (setCapture_writes _ _) (capacity := fun _ c => { c with }) (offer := fun _ o => ?_)
        (ring := fun _ _ r => { r with })
      have hdormant := o.outsideMember (by rw [hi]; simp)
      exact { o with capturing := fun h => absurd (hdormant.symm.trans h) (by simp) }
  next => exact .refl

/-! ## A round start (R85, R86) -/

theorem loseInput_keeps (s : State) : KeepsInvariants s (loseInput s) := by
  have hlost : KeepsInvariants s (s.setCapture { s.capture with input := .lost }) :=
    keeps_of_capture (setCapture_writes _ _) rfl rfl rfl rfl (fun h => h) (fun _ h => h)
  unfold loseInput
  dsimp only
  split
  next hc =>
    refine .trans ?_ (checkPublished_keeps _)
    refine .trans ?_ (post_keeps _ _ _ _)
    refine .trans (hlost.trans (endCaptureWithFill_keeps hc)) ?_
    exact keeps_of_capture (setCapture_writes _ _) rfl rfl rfl rfl (fun h => h) (fun h => absurd h (by simp))
  next => exact hlost.trans (post_keeps _ _ _ _)

theorem captureRoundStart_keeps (s : State) : KeepsInvariants s (captureRoundStart s) := by
  have hsilence : KeepsInvariants s
      (s.setCapture { s.capture with silence := saturate Config.count8 s.capture.silence 1 }) :=
    keeps_of_capture (setCapture_writes _ _) rfl rfl rfl rfl (fun _ => saturate_le _ _ _) (fun _ h => h)
  unfold captureRoundStart
  dsimp only
  split
  · split
    · exact hsilence.trans (loseInput_keeps _)
    · exact hsilence
  · exact .refl

end Sys2Proof.Machine
end

section
/-! The coverage plan and the coverage table: what a row of the plan lists, and that opening and claiming keep every count equal to the
number of clear flags. -/

namespace Sys2Proof.Machine

/-! ## Spans and ordered lists -/

theorem mem_span {a b n : Nat} : n ∈ span a b ↔ a ≤ n ∧ n ≤ b := by
  simp only [span, List.mem_map, List.mem_range]
  constructor
  · rintro ⟨m, hm, rfl⟩
    omega
  · rintro ⟨ha, hb⟩
    exact ⟨n - a, by omega, by omega⟩

theorem nodup_span (a b : Nat) : (span a b).Nodup :=
  List.nodup_range.map fun _ _ h => Nat.add_left_cancel h

theorem mem_streamIds {k : Nat} : k ∈ streamIds ↔ k < 16 := by
  simp only [streamIds, List.mem_cons, List.not_mem_nil, or_false]
  omega

theorem streamIds_eq_range : streamIds = List.range 16 := rfl

theorem insertExpected_perm (e : Expected) (l : List Expected) : (insertExpected e l).Perm (e :: l) := by
  induction l with
  | nil => exact .refl _
  | cons f l ih =>
    unfold insertExpected
    split
    · exact .refl _
    · exact (ih.cons f).trans (.swap e f l)

theorem foldr_insertExpected_perm (l : List Expected) : (l.foldr insertExpected []).Perm l := by
  induction l with
  | nil => exact .refl _
  | cons e l ih => exact (insertExpected_perm e _).trans (ih.cons e)

theorem insertExpected_sorted (e : Expected) {l : List Expected} (h : l.Pairwise (fun a b => a.placedFirst ≤ b.placedFirst)) :
    (insertExpected e l).Pairwise (fun a b => a.placedFirst ≤ b.placedFirst) := by
  induction l with
  | nil => exact List.pairwise_singleton _ _
  | cons f l ih =>
    obtain ⟨hf, hl⟩ := List.pairwise_cons.1 h
    unfold insertExpected
    split
    next hle =>
      refine List.pairwise_cons.2 ⟨fun x hx => ?_, h⟩
      rcases List.mem_cons.1 hx with rfl | hx
      · exact hle
      · exact hle.trans (hf x hx)
    next hlt =>
      refine List.pairwise_cons.2 ⟨fun x hx => ?_, ih hl⟩
      rcases List.mem_cons.1 ((insertExpected_perm e l).subset hx) with rfl | hx
      · exact (Nat.lt_of_not_le hlt).le
      · exact hf x hx

/-! ## A row of the plan (R13) -/

theorem mem_expectedOf {img : Image} {y k : Nat} {e : Expected} : e ∈ img.expectedOf y k ↔
    img.contributes k = true ∧ (img.stream k).rect.coversRow y = true ∧
      ∃ i, (img.stream k).indexOf (img.firstShared k) ≤ i ∧ i ≤ (img.stream k).indexOf (img.lastShared k) ∧
        e = img.expectedPiece k i := by
  unfold Image.expectedOf
  dsimp only
  split
  next h =>
    obtain ⟨hc, hr⟩ := Bool.and_eq_true_iff.1 h
    simp only [List.mem_map, mem_span, hc, hr, true_and, and_assoc, eq_comm]
  next h =>
    rw [Bool.and_eq_true] at h
    exact ⟨fun hm => absurd hm (by simp), fun ⟨hc, hr, _⟩ => absurd ⟨hc, hr⟩ h⟩

theorem expectedRow_perm (img : Image) (y : Nat) : (img.expectedRow y).Perm (streamIds.flatMap (img.expectedOf y)) :=
  foldr_insertExpected_perm _

theorem mem_expectedRow {img : Image} {y : Nat} {e : Expected} :
    e ∈ img.expectedRow y ↔ ∃ k, k < 16 ∧ e ∈ img.expectedOf y k := by
  rw [(expectedRow_perm img y).mem_iff, List.mem_flatMap]
  simp only [mem_streamIds]

/-- The piece an entry of the plan stands for. -/
def Expected.key (e : Expected) : Nat × Nat := (e.stream, e.index)

/-- A row of the plan lists no piece twice (R13). -/
theorem expectedRow_keys_nodup (img : Image) (y : Nat) : ((img.expectedRow y).map Expected.key).Nodup := by
  refine ((expectedRow_perm img y).map _).nodup_iff.2 ?_
  rw [List.map_flatMap, List.nodup_flatMap]
  constructor
  · intro k _
    unfold Image.expectedOf
    dsimp only
    split
    · rw [List.map_map]
      exact (nodup_span _ _).map fun i j hij => (Prod.mk.inj hij).2
    · exact List.nodup_nil
  · refine List.Pairwise.imp_of_mem (R := (· ≠ ·)) (fun {a b} _ _ hab => ?_) (by decide)
    intro p ha hb
    obtain ⟨e, he, rfl⟩ := List.mem_map.1 ha
    obtain ⟨f, hf, hef⟩ := List.mem_map.1 hb
    obtain ⟨-, -, i, -, -, rfl⟩ := mem_expectedOf.1 he
    obtain ⟨-, -, j, -, -, rfl⟩ := mem_expectedOf.1 hf
    exact hab (Prod.mk.inj hef).1.symm

theorem expectedRow_stream_lt {img : Image} {y : Nat} {e : Expected} (h : e ∈ img.expectedRow y) : e.stream < 16 := by
  obtain ⟨k, hk, he⟩ := mem_expectedRow.1 h
  obtain ⟨-, -, i, -, -, rfl⟩ := mem_expectedOf.1 he
  exact hk

/-! ## The table taken from a plan (R109) -/

theorem getD_streamIds_map (f : Nat → Nat) {k : Nat} (hk : k < 16) : (streamIds.map f).getD k 0 = f k := by
  rw [streamIds_eq_range, List.getD_eq_getElem?_getD, List.getElem?_map, List.getElem?_range hk]
  rfl

theorem clearFlags_unclaimedRows (plan : List (List Expected)) (k : Nat) :
    clearFlags (unclaimedRows plan) k = expectedTotal plan k := by
  simp only [clearFlags, unclaimedRows, expectedTotal, List.map_map, Function.comp_def, List.countP_map, Bool.not_false,
    Bool.and_true]

theorem expectedFlags_unclaimedRows (plan : List (List Expected)) (k : Nat) :
    expectedFlags (unclaimedRows plan) k = expectedTotal plan k := by
  simp only [expectedFlags, unclaimedRows, expectedTotal, List.map_map, Function.comp_def, List.countP_map]

theorem ofPlan_counts (img : Image) : CoverageCounts (Coverage.ofPlan img.coveragePlan) where
  sized := ⟨rfl, rfl⟩
  outstanding k hk := (getD_streamIds_map _ hk).trans (clearFlags_unclaimedRows _ k).symm
  totals k hk := (getD_streamIds_map _ hk).trans (expectedFlags_unclaimedRows _ k).symm
  distinct l hl := by
    simp only [Coverage.ofPlan, unclaimedRows, Image.coveragePlan, List.map_map, List.mem_map] at hl
    obtain ⟨v, -, rfl⟩ := hl
    have h := expectedRow_keys_nodup img (img.tileY + v)
    simp only [PiecesDistinct, Function.comp_def, List.map_map]
    exact h
  streams l hl e he := by
    simp only [Coverage.ofPlan, unclaimedRows, Image.coveragePlan, List.map_map, List.mem_map] at hl
    obtain ⟨v, -, rfl⟩ := hl
    obtain ⟨x, hx, rfl⟩ := List.mem_map.1 he
    exact expectedRow_stream_lt hx

/-! ## The table opened (R110) -/

theorem open_counts {c : Coverage} (h : CoverageCounts c) (f : Frame) : CoverageCounts (c.open f) where
  sized := ⟨h.sized.2, h.sized.2⟩
  outstanding k hk := by
    refine (h.totals k hk).trans ?_
    simp only [Coverage.open, clearFlags, expectedFlags, List.map_map, Function.comp_def, List.countP_map, Bool.not_false,
      Bool.and_true]
  totals k hk := by
    refine (h.totals k hk).trans ?_
    simp only [Coverage.open, expectedFlags, List.map_map, Function.comp_def, List.countP_map]
  distinct l hl := by
    obtain ⟨m, hm, rfl⟩ := List.mem_map.1 hl
    have hd := h.distinct m hm
    simpa only [PiecesDistinct, List.map_map, Function.comp_def] using hd
  streams l hl e he := by
    obtain ⟨m, hm, rfl⟩ := List.mem_map.1 hl
    obtain ⟨x, hx, rfl⟩ := List.mem_map.1 he
    exact h.streams m hm x hx

/-! ## A claim in one row -/

theorem isFor_iff {e : CoverageEntry} {k i : Nat} : e.isFor k i = true ↔ (e.expected.stream, e.expected.index) = (k, i) := by
  simp [CoverageEntry.isFor]

theorem claimInRow_keys (k i : Nat) (l : List CoverageEntry) :
    (claimInRow k i l).map (fun e => (e.expected.stream, e.expected.index)) =
      l.map (fun e => (e.expected.stream, e.expected.index)) := by
  simp only [claimInRow, List.map_map]
  refine List.map_congr_left fun e _ => ?_
  simp only [Function.comp_apply]
  split <;> rfl

theorem claimInRow_of_absent {k i : Nat} {l : List CoverageEntry} (h : ∀ e ∈ l, e.isFor k i = false) : claimInRow k i l = l := by
  unfold claimInRow
  conv_rhs => rw [← List.map_id l]
  exact List.map_congr_left fun e he => by simp [h e he]

theorem claimInRow_expected (k i n : Nat) (l : List CoverageEntry) :
    (claimInRow k i l).countP (fun e => e.expected.stream == n) = l.countP (fun e => e.expected.stream == n) := by
  simp only [claimInRow, List.countP_map]
  refine List.countP_congr fun e _ => ?_
  simp only [Function.comp_apply]
  split <;> rfl

theorem claimInRow_clear_other {k n : Nat} (i : Nat) (h : n ≠ k) (l : List CoverageEntry) :
    (claimInRow k i l).countP (fun e => e.expected.stream == n && !e.claimed) =
      l.countP (fun e => e.expected.stream == n && !e.claimed) := by
  simp only [claimInRow, List.countP_map]
  refine List.countP_congr fun e _ => ?_
  simp only [Function.comp_apply]
  split
  next hf =>
    have hk : e.expected.stream = k := (Prod.mk.inj (isFor_iff.1 hf)).1
    simp [hk, h.symm]
  next => rfl

/-- Claiming a listed piece lowers the number of clear flags of its stream by one: the row lists it once. -/
theorem claimInRow_clear {k i : Nat} {l : List CoverageEntry} (hd : PiecesDistinct l) {e : CoverageEntry}
    (h : l.find? (fun e => e.isFor k i) = some e) (hc : e.claimed = false) :
    (claimInRow k i l).countP (fun e => e.expected.stream == k && !e.claimed) + 1 =
      l.countP (fun e => e.expected.stream == k && !e.claimed) := by
  induction l with
  | nil => simp at h
  | cons a l ih =>
    rw [PiecesDistinct, List.map_cons, List.nodup_cons] at hd
    by_cases ha : a.isFor k i = true
    · have hkey := isFor_iff.1 ha
      have hrest : claimInRow k i l = l := claimInRow_of_absent fun x hx => by
        by_contra hx'
        have hxkey := isFor_iff.1 (by simpa using hx')
        exact hd.1 (List.mem_map.2 ⟨x, hx, hxkey.trans hkey.symm⟩)
      obtain rfl : a = e := by simpa [ha] using h
      have hk : a.expected.stream = k := (Prod.mk.inj hkey).1
      have hcons : claimInRow k i (a :: l) = { a with claimed := true } :: claimInRow k i l := by simp [claimInRow, ha]
      rw [hcons, hrest, List.countP_cons, List.countP_cons]
      simp [hk, hc]
    · have hcons : claimInRow k i (a :: l) = a :: claimInRow k i l := by simp [claimInRow, ha]
      have hfind : l.find? (fun e => e.isFor k i) = some e := by simpa [ha] using h
      rw [hcons, List.countP_cons, List.countP_cons, ← ih hd.2 hfind]
      omega

/-! ## A claim in the table (R108) -/

/-- A sum over rows of which one is changed. -/
theorem sum_map_modify {α : Type} (g : List α → Nat) (f : List α → List α) (rows : List (List α)) :
    ∀ v, v < rows.length →
      ((rows.modify v f).map g).sum + g (rows.getD v []) = (rows.map g).sum + g (f (rows.getD v [])) := by
  induction rows with
  | nil => intro v hv; simp at hv
  | cons l rows ih =>
    intro v hv
    cases v with
    | zero => simp; omega
    | succ v =>
      have := ih v (by simpa using hv)
      simp only [List.modify_succ_cons, List.map_cons, List.sum_cons, List.getD_cons_succ]
      omega

theorem mem_modify {α : Type} {f : List α → List α} {rows : List (List α)} {v : Nat} {l : List α}
    (h : l ∈ rows.modify v f) : l ∈ rows ∨ ∃ m ∈ rows, l = f m := by
  induction rows generalizing v with
  | nil => simp at h
  | cons m rows ih =>
    cases v with
    | zero =>
      rcases List.mem_cons.1 h with rfl | h
      · exact .inr ⟨m, List.mem_cons_self, rfl⟩
      · exact .inl (List.mem_cons_of_mem _ h)
    | succ v =>
      rcases List.mem_cons.1 h with rfl | h
      · exact .inl List.mem_cons_self
      · rcases ih h with h | ⟨x, hx, rfl⟩
        · exact .inl (List.mem_cons_of_mem _ h)
        · exact .inr ⟨x, List.mem_cons_of_mem _ hx, rfl⟩

theorem coverageEntry_eq_some {img : Image} {c : Coverage} {k y i : Nat} {e : CoverageEntry}
    (h : coverageEntry img c k y i = some e) :
    img.tileY ≤ y ∧ (c.rows.getD (y - img.tileY) []).find? (fun e => e.isFor k i) = some e := by
  unfold coverageEntry at h
  split at h
  next hy => exact ⟨hy, h⟩
  next => cases h

theorem coverageEntry_mem {img : Image} {c : Coverage} {k y i : Nat} {e : CoverageEntry}
    (h : coverageEntry img c k y i = some e) :
    y - img.tileY < c.rows.length ∧ c.rows.getD (y - img.tileY) [] ∈ c.rows ∧ e ∈ c.rows.getD (y - img.tileY) [] ∧
      e.expected.stream = k ∧ e.expected.index = i := by
  obtain ⟨-, hfind⟩ := coverageEntry_eq_some h
  have he := List.mem_of_find?_eq_some hfind
  have hkey := isFor_iff.1 (List.find?_some (p := fun e : CoverageEntry => e.isFor k i) hfind)
  have hlt : y - img.tileY < c.rows.length := by
    by_contra hn
    rw [List.getD_eq_default _ _ (by omega)] at he
    exact absurd he (by simp)
  refine ⟨hlt, ?_, he, (Prod.mk.inj hkey).1, (Prod.mk.inj hkey).2⟩
  rw [List.getD_eq_getElem _ _ hlt]
  exact List.getElem_mem hlt

/-- A claim of a piece whose flag is clear keeps the counts. -/
theorem claim_counts {img : Image} {c : Coverage} {k y i : Nat} {e : CoverageEntry} (h : CoverageCounts c)
    (he : coverageEntry img c k y i = some e) (hclear : e.claimed = false) : CoverageCounts (c.claim img k y i) := by
  obtain ⟨hlt, hrow, hmem, hstream, -⟩ := coverageEntry_mem he
  obtain ⟨-, hfind⟩ := coverageEntry_eq_some he
  have hk : k < 16 := hstream ▸ h.streams _ hrow e hmem
  have hone := claimInRow_clear (h.distinct _ hrow) hfind hclear
  constructor
  · exact ⟨by simpa [Coverage.claim] using h.sized.1, h.sized.2⟩
  · intro n hn
    have hsum := sum_map_modify (fun l => l.countP (fun e => e.expected.stream == n && !e.claimed)) (claimInRow k i) c.rows _ hlt
    have hold := h.outstanding n hn
    simp only [clearFlags, Coverage.claim] at hold ⊢
    have hlen : k < c.outstanding.length := by rw [h.sized.1]; exact hk
    by_cases hnk : n = k
    · subst hnk
      simp only [List.getD_eq_getElem?_getD, List.getElem?_set_self hlen, Option.getD_some] at hold ⊢
      omega
    · have hsame := claimInRow_clear_other i hnk (c.rows.getD (y - img.tileY) [])
      simp only [List.getD_eq_getElem?_getD, List.getElem?_set_ne (Ne.symm hnk)] at hold hsame hsum ⊢
      omega
  · intro n hn
    have hsum := sum_map_modify (fun l => l.countP (fun e => e.expected.stream == n)) (claimInRow k i) c.rows _ hlt
    have hold := h.totals n hn
    have hsame := claimInRow_expected k i n (c.rows.getD (y - img.tileY) [])
    simp only [expectedFlags, Coverage.claim] at hold ⊢
    omega
  · intro l hl
    rcases mem_modify hl with hl | ⟨m, hm, rfl⟩
    · exact h.distinct l hl
    · rw [PiecesDistinct, claimInRow_keys]
      exact h.distinct m hm
  · intro l hl x hx
    rcases mem_modify hl with hl | ⟨m, hm, rfl⟩
    · exact h.streams l hl x hx
    · obtain ⟨z, hz, rfl⟩ := List.mem_map.1 hx
      have := h.streams m hm z hz
      split <;> exact this

/-- An entry whose flag is set keeps it through a claim. -/
theorem coverageEntry_claim_claimed {img : Image} {c : Coverage} {k y i : Nat} {e : CoverageEntry}
    (h : coverageEntry img c k y i = some e) (hc : e.claimed = true) (k' y' i' : Nat) :
    ∃ e', coverageEntry img (c.claim img k' y' i') k y i = some e' ∧ e'.claimed = true := by
  obtain ⟨hy, hfind⟩ := coverageEntry_eq_some h
  simp only [coverageEntry, if_pos hy, Coverage.claim, List.getD_eq_getElem?_getD, List.getElem?_modify] at hfind ⊢
  by_cases hrow : y' - img.tileY = y - img.tileY
  · cases hq : c.rows[y - img.tileY]? with
    | none => simp [hq] at hfind
    | some l =>
      have hfor : ∀ e : CoverageEntry, (if e.isFor k' i' = true then { e with claimed := true } else e).isFor k i = e.isFor k i := by
        intro e
        split <;> rfl
      simp only [hq, Option.getD_some] at hfind
      refine ⟨if e.isFor k' i' = true then { e with claimed := true } else e, ?_, ?_⟩
      · simp [hrow, claimInRow, List.find?_map, hfor, hfind]
      · split
        · rfl
        · exact hc
  · exact ⟨e, by simpa [hrow] using hfind, hc⟩

end Sys2Proof.Machine
end

section
/-! The sink side: placement, bank control, the panel scan and claims, with what each keeps. -/

namespace Sys2Proof.Machine

/-! ## The front bank (R121) -/

/-- The front bank is the same bank, with the same contents. -/
def FrontKept (s t : State) : Prop := t.banks.front = s.banks.front ∧ t.banks.frontBank = s.banks.frontBank

namespace FrontKept

variable {s t u : State}

theorem refl : FrontKept s s := ⟨rfl, rfl⟩

theorem trans (a : FrontKept s t) (b : FrontKept t u) : FrontKept s u := ⟨b.1.trans a.1, b.2.trans a.2⟩

theorem of_writes {fs : List Field} (w : OnlyWrites fs s t) (h : Field.banks ∉ fs) : FrontKept s t := by
  have hb : t.banks = s.banks := w .banks h
  rw [FrontKept, hb]
  exact ⟨rfl, rfl⟩

end FrontKept

theorem setBackBank_front (b : Bank) (s : State) : FrontKept s (setBackBank b s) :=
  ⟨setBack_front _ _, setBack_frontBank _ _⟩

theorem completePlacement_front (s : State) : FrontKept s (completePlacement s) := by
  unfold completePlacement
  split
  · refine .trans ?_ (.of_writes (tryPlace_writes _) (by decide))
    refine .trans ?_ (.of_writes (setEngine_writes _ _) (by decide))
    refine .trans ?_ (.of_writes (setLanding_writes _ _) (by decide))
    exact setBackBank_front _ _
  · exact .refl

theorem stopPlacement_front (s : State) : FrontKept s (stopPlacement s) := by
  unfold stopPlacement
  split
  · refine .trans ?_ (.of_writes (drawFree_writes _) (by decide))
    refine .trans ?_ (.of_writes (setEngine_writes _ _) (by decide))
    exact setBackBank_front _ _
  · exact .of_writes (setEngine_writes _ _) (by decide)

theorem discardLanding_front (s : State) : FrontKept s (discardLanding s) :=
  (stopPlacement_front s).trans (.of_writes (setLanding_writes _ _) (by decide))

theorem stopClear_front (s : State) : FrontKept s (stopClear s) := by
  unfold stopClear
  split
  · refine .trans ?_ (.of_writes (drawFree_writes _) (by decide))
    exact ⟨setBack_front _ _, setBack_frontBank _ _⟩
  · exact .refl
  · exact .refl

theorem openCoverage_front (f : Frame) (s : State) : FrontKept s (openCoverage f s) :=
  .of_writes (openCoverage_writes _ _) (by decide)

theorem reopenBack_front (s : State) : FrontKept s (reopenBack s) := by
  refine (stopClear_front s).trans ?_
  unfold reopenBack
  dsimp only
  split
  · exact ⟨rfl, rfl⟩
  · exact .trans ⟨rfl, rfl⟩ (openCoverage_front _ _)

theorem openBackAtJoin_front (s : State) : FrontKept s (openBackAtJoin s) :=
  .trans ⟨rfl, rfl⟩ (openCoverage_front _ _)

theorem noticeAtOnce_front (a : Action) (f : Frame) (complete : Bool) (s : State) : FrontKept s (noticeAtOnce a f complete s) := by
  unfold noticeAtOnce
  split
  · split
    · exact .trans ⟨rfl, rfl⟩ (openCoverage_front _ _)
    · exact .trans (.of_writes (straggle_writes _ _ _) (by decide)) (reopenBack_front _)
  · exact reopenBack_front _
  · exact reopenBack_front _
  · exact openBackAtJoin_front _

theorem bankNotice_front (a : Action) (f : Frame) (complete : Bool) (s : State) : FrontKept s (bankNotice a f complete s) := by
  unfold bankNotice
  split
  · exact noticeAtOnce_front _ _ _ _
  · exact .of_writes (noticeBehindSwap_writes _ _ _) (by decide)

theorem isolateBanks_front (s : State) : FrontKept s (isolateBanks s) := (stopClear_front s).trans ⟨rfl, rfl⟩

theorem endBankClear_front (s : State) : FrontKept s (endBankClear s) := by
  unfold endBankClear
  split
  · refine .trans ?_ (.of_writes (tryPlace_writes _) (by decide))
    exact ⟨setBack_front _ _, setBack_frontBank _ _⟩
  · exact .refl
  · exact .refl

/-! ## Canonical banks -/

theorem BanksCanonical.back {s : State} (h : BanksCanonical s) : s.banks.back.wf = true := by
  unfold BankControl.back
  split
  · exact h.2
  · exact h.1

theorem setBackBank_canonical {s : State} (h : BanksCanonical s) {b : Bank} (hb : b.wf = true) :
    BanksCanonical (setBackBank b s) := by
  unfold BanksCanonical setBackBank BankControl.setBack
  cases s.banks.front with
  | bank0 => exact ⟨h.1, hb⟩
  | bank1 => exact ⟨hb, h.2⟩

theorem stopPlacement_canonical {s : State} (h : BanksCanonical s) : BanksCanonical (stopPlacement s) := by
  unfold stopPlacement
  split
  · exact setBackBank_canonical h (Bank.writeAll_wf _ _ h.back)
  · exact h

theorem stopClear_canonical {s : State} (h : BanksCanonical s) : BanksCanonical (stopClear s) := by
  unfold stopClear
  split
  · exact setBackBank_canonical h (Bank.writeAll_wf _ _ h.back)
  · exact h
  · exact h

/-! ## What a stopped clear and a stopped placement leave -/

@[simp] theorem setBackBank_banks_clear (b : Bank) (s : State) : (setBackBank b s).banks.clear = s.banks.clear := setBack_clear _ _

@[simp] theorem setBackBank_banks_swapPending (b : Bank) (s : State) :
    (setBackBank b s).banks.swapPending = s.banks.swapPending := setBack_swapPending _ _

@[simp] theorem setBackBank_banks_backFrame (b : Bank) (s : State) :
    (setBackBank b s).banks.backFrame = s.banks.backFrame := setBack_backFrame _ _

@[simp] theorem setBackBank_banks_shown (b : Bank) (s : State) : (setBackBank b s).banks.shown = s.banks.shown := setBack_shown _ _

theorem stopClear_of_not_clearing {s : State} (h : s.banks.clear ≠ .clearingBack) : stopClear s = s := by
  unfold stopClear
  split
  next hc => exact absurd hc h
  next => rfl
  next => rfl

/-- Of bank control a stopped clear changes the back bank and the clear state alone. -/
theorem stopClear_banks (s : State) :
    (stopClear s).banks.swapPending = s.banks.swapPending ∧ (stopClear s).banks.backFrame = s.banks.backFrame ∧
      (stopClear s).banks.shown = s.banks.shown ∧
      (stopClear s).banks.clear = (if s.banks.clear = .clearingBack then .idle else s.banks.clear) := by
  unfold stopClear
  split
  next h => exact ⟨setBack_swapPending _ _, setBack_backFrame _ _, setBack_shown _ _, by rw [h]; rfl⟩
  next h => exact ⟨rfl, rfl, rfl, by rw [h]; rfl⟩
  next h => exact ⟨rfl, rfl, rfl, by rw [h]; rfl⟩

/-- Of bank control a stopped placement changes the back bank alone. -/
theorem stopPlacement_banks (s : State) :
    (stopPlacement s).banks.swapPending = s.banks.swapPending ∧ (stopPlacement s).banks.backFrame = s.banks.backFrame ∧
      (stopPlacement s).banks.shown = s.banks.shown ∧ (stopPlacement s).banks.clear = s.banks.clear := by
  unfold stopPlacement
  split
  · exact ⟨setBack_swapPending _ _, setBack_backFrame _ _, setBack_shown _ _, setBack_clear _ _⟩
  · exact ⟨rfl, rfl, rfl, rfl⟩

@[simp] theorem stopPlacement_engine (s : State) : (stopPlacement s).engine = .idle := by
  unfold stopPlacement
  split <;> rfl

@[simp] theorem discardLanding_engine (s : State) : (discardLanding s).engine = .idle := stopPlacement_engine s

@[simp] theorem discardLanding_landing (s : State) : (discardLanding s).landing = [] := rfl

/-! ## Rules for the sink's blocks -/

/-- A rule for operations that write the back bank, the clear state or the engine, and leave the landing queue. -/
theorem keeps_of_banks {s t : State} (w : OnlyWrites [.banks, .engine, .freeSeq] s t)
    (canonical : BanksCanonical s → BanksCanonical t) (heldBack : PlacementHeldBack s → PlacementHeldBack t) :
    KeepsInvariants s t := .of_writes w (canonical := fun _ => canonical) (heldBack := fun _ => heldBack)

/-- What R114 asks of the engine, with the rest of PlacementHeldBack as it was. -/
theorem tryPlace_keeps {s : State} (hmember : s.landing ≠ [] → s.station.state = .member) : KeepsInvariants s (tryPlace s) := by
  unfold tryPlace
  split
  next h =>
    simp only [mayPlace, Bool.and_eq_true, beq_iff_eq, Bool.not_eq_true', List.isEmpty_eq_false_iff, Option.isNone_iff_eq_none] at h
    obtain ⟨⟨⟨⟨-, hlanding⟩, hclear⟩, hswap⟩, -⟩ := h
    refine .of_writes (setEngine_writes _ _) (heldBack := fun _ p => ?_)
    exact { p with
      outsideMember := fun hn => absurd (hmember hlanding) hn
      swapping := fun hs => absurd hswap hs
      placing := fun _ => ⟨hclear, hlanding⟩ }
  next => exact .refl

theorem PlacementHeldBack.member_of_landing {s : State} (p : PlacementHeldBack s) (h : s.landing ≠ []) :
    s.station.state = .member := by
  by_contra hm
  exact h (p.outsideMember hm).1

theorem PlacementHeldBack.member_of_swap {s : State} (p : PlacementHeldBack s) (h : s.banks.swapPending ≠ none) :
    s.station.state = .member := by
  by_contra hm
  exact h (p.outsideMember hm).2.2

theorem PlacementHeldBack.member_of_clearingBack {s : State} (p : PlacementHeldBack s) (h : s.banks.clear = .clearingBack) :
    s.station.state = .member := by
  have hc := p.clearing
  cases hs : s.station.state with
  | member => rfl
  | loading => rw [hs] at hc; exact absurd h hc
  | listen => rw [hs] at hc; exact absurd (h.symm.trans hc) (by simp)
  | isolated => rw [hs] at hc; exact absurd (h.symm.trans hc) (by simp)

/-- The clause of PlacementHeldBack on clears, for a MEMBER. -/
theorem clearing_of_member {s : State} (hm : s.station.state = .member) (hc : s.banks.clear ≠ .clearingBoth) :
    match s.station.state with
    | .loading => s.banks.clear ≠ .clearingBack
    | .listen => s.banks.clear = .idle
    | .member => s.banks.clear ≠ .clearingBoth
    | .isolated => s.banks.clear = .idle := by
  rw [hm]
  exact hc

/-- PlacementHeldBack of a MEMBER. -/
theorem PlacementHeldBack.of_member {s : State} (hm : s.station.state = .member) (hc : s.banks.clear ≠ .clearingBoth)
    (hswap : s.banks.swapPending ≠ none → s.banks.clear = .idle ∧ s.engine = .idle)
    (hplacing : s.engine = .placing → s.banks.clear = .idle ∧ s.landing ≠ []) : PlacementHeldBack s where
  outsideMember h := absurd hm h
  reading h := absurd (hm.symm.trans h) (by simp)
  clearing := clearing_of_member hm hc
  swapping := hswap
  placing := hplacing

theorem PlacementHeldBack.clear_of_member {s : State} (p : PlacementHeldBack s) (hm : s.station.state = .member) :
    s.banks.clear ≠ .clearingBoth := by
  have hc := p.clearing
  rwa [hm] at hc

/-! ## Placement (R114, R116) -/

theorem tryPlace_banks (s : State) : (tryPlace s).banks = s.banks := tryPlace_writes s .banks (by decide)

theorem tryPlace_landing (s : State) : (tryPlace s).landing = s.landing := tryPlace_writes s .landing (by decide)

/-- After the engine's test: it places only with its conditions met. -/
theorem tryPlace_heldBack {s : State} (hm : s.station.state = .member) (hc : s.banks.clear ≠ .clearingBoth)
    (hidle : s.engine = .idle) (hswap : s.banks.swapPending ≠ none → s.banks.clear = .idle) : PlacementHeldBack (tryPlace s) :=
  (tryPlace_keeps fun _ => hm).heldBack
    (.of_member hm hc (fun h => ⟨hswap h, hidle⟩) fun h => absurd (hidle.symm.trans h) (by simp))

theorem LandingInOrder.shortened {s : State} (h : LandingInOrder s) {p : Piece} {rest : List Piece} (hl : s.landing = p :: rest)
    {t : State} (w : OnlyWrites [.banks, .landing, .engine] s t) (ht : t.landing = rest) : LandingInOrder t := by
  have himage := image_of_writes w (by decide)
  have hmember := isMember_of_writes w (by decide)
  have hcoverage : t.coverage = s.coverage := w .coverage (by decide)
  have hsettle : t.settle = s.settle := w .settle (by decide)
  have hsub : ∀ q ∈ rest, q ∈ s.landing := fun q hq => hl ▸ List.mem_cons_of_mem _ hq
  constructor
  · have hp := h.pieces
    rw [hl, List.map_cons, List.nodup_cons] at hp
    rw [ht]
    exact hp.2
  · rw [ht, himage, hcoverage]
    exact fun q hq => h.claimed q (hsub q hq)
  · rw [ht, hsettle]
    exact fun q hq => h.frame q (hsub q hq)
  · rw [himage, hmember]
    exact fun _ => h.sink (by rw [hl]; simp)
  · rw [himage, hmember, hcoverage, hsettle]
    exact h.openFor

theorem completePlacement_of_placing {s : State} {p : Piece} {rest : List Piece} (hplacing : s.engine = .placing)
    (hlanding : s.landing = p :: rest) : completePlacement s =
      tryPlace (((setBackBank (s.banks.back.writeAll (placementWrites s p)) s).setLanding rest).setEngine .idle) := by
  rw [completePlacement, hplacing, hlanding]

theorem completePlacement_of_idle {s : State} (h : s.engine = .idle) : completePlacement s = s := by
  rw [completePlacement, h]

theorem completePlacement_of_nil {s : State} (h : s.landing = []) : completePlacement s = s := by
  rw [completePlacement, h]
  split
  next hcons => cases hcons
  next => rfl

theorem completePlacement_keeps (s : State) : KeepsInvariants s (completePlacement s) := by
  have w := completePlacement_writes s
  cases hengine : s.engine with
  | idle => exact .of_eq (completePlacement_of_idle hengine)
  | placing =>
    cases hlanding : s.landing with
    | nil => exact .of_eq (completePlacement_of_nil hlanding)
    | cons p rest =>
      rw [completePlacement_of_placing hengine hlanding] at w ⊢
      refine .of_writes w (capacity := fun _ c => ?_) (canonical := fun _ b => ?_) (heldBack := fun _ h => ?_)
        (landing := fun _ h => h.shortened hlanding w (tryPlace_landing _))
      · have hlen : rest.length ≤ 16 := by
          have := c.landing
          rw [hlanding, List.length_cons] at this
          omega
        exact withinCapacity_of_writes (tryPlace_writes _) (by decide) { c with landing := hlen }
      · rw [BanksCanonical, tryPlace_banks]
        exact setBackBank_canonical b (Bank.writeAll_wf _ _ b.back)
      · obtain ⟨hclear, hne⟩ := h.placing hengine
        refine tryPlace_heldBack (h.member_of_landing hne) ?_ rfl fun _ => ?_
        · simp [hclear]
        · simp [hclear]

/-! ## Clears (R123) -/

theorem endBankClear_of_clearing {s : State} (h : s.banks.clear = .clearingBack) :
    endBankClear s = tryPlace (setClear .idle (setBackBank (Bank.cleared s.image.background) s)) := by
  rw [endBankClear, h]

theorem endBankClear_of_not_clearing {s : State} (h : s.banks.clear ≠ .clearingBack) : endBankClear s = s := by
  unfold endBankClear
  split
  next hc => exact absurd hc h
  next => rfl
  next => rfl

theorem endBankClear_keeps (s : State) : KeepsInvariants s (endBankClear s) := by
  by_cases hclear : s.banks.clear = .clearingBack
  · rw [endBankClear_of_clearing hclear]
    have w : OnlyWrites [.banks, .engine, .freeSeq] s
        (tryPlace (setClear .idle (setBackBank (Bank.cleared s.image.background) s))) :=
      endBankClear_of_clearing hclear ▸ (endBankClear_writes s).widen (by decide)
    refine keeps_of_banks w (fun b => ?_) fun p => ?_
    · rw [BanksCanonical, tryPlace_banks]
      exact setBackBank_canonical b (Bank.cleared_wf _)
    · have hm := p.member_of_clearingBack hclear
      have hengine : s.engine = .idle := by
        cases he : s.engine with
        | idle => rfl
        | placing => exact absurd (hclear.symm.trans (p.placing he).1) (by simp)
      exact tryPlace_heldBack hm (by simp [setClear]) hengine fun _ => rfl
  · exact .of_eq (endBankClear_of_not_clearing hclear)

/-! ## The panel scan (R131, R132) -/

theorem reopenBack_of_open {s : State} (h : s.coverage.openFor = some s.openFrame) : reopenBack s =
    (stopClear s).setBanks { (stopClear s).banks with backFrame := some s.openFrame, clear := .clearingBack } := by
  have w := stopClear_writes s
  have hc : (stopClear s).coverage = s.coverage := w .coverage (by decide)
  have hs : (stopClear s).settle = s.settle := w .settle (by decide)
  have hf : (stopClear s).openFrame = s.openFrame := by rw [State.openFrame, State.openFrame, hs]
  unfold reopenBack
  dsimp only
  rw [hf, if_pos]
  show (stopClear s).coverage.openFor = some (stopClear s).openFrame
  rw [hc, hf, h]

theorem reopenBack_of_not_open {s : State} (h : s.coverage.openFor ≠ some s.openFrame) : reopenBack s =
    openCoverage s.openFrame
      ((stopClear s).setBanks { (stopClear s).banks with backFrame := some s.openFrame, clear := .clearingBack }) := by
  have w := stopClear_writes s
  have hc : (stopClear s).coverage = s.coverage := w .coverage (by decide)
  have hs : (stopClear s).settle = s.settle := w .settle (by decide)
  have hf : (stopClear s).openFrame = s.openFrame := by rw [State.openFrame, State.openFrame, hs]
  unfold reopenBack
  dsimp only
  rw [hf, if_neg]
  · rw [show ∀ u : State, ∀ b, (u.setBanks b).openFrame = u.openFrame from fun _ _ => rfl, hf]
  · show (stopClear s).coverage.openFor ≠ some (stopClear s).openFrame
    rwa [hc, hf]

/-- What reopening leaves of bank control and the coverage table. -/
theorem reopenBack_leaves (s : State) :
    (reopenBack s).banks.swapPending = s.banks.swapPending ∧ (reopenBack s).banks.backFrame = some s.openFrame ∧
      (reopenBack s).banks.shown = s.banks.shown ∧ (reopenBack s).banks.clear = .clearingBack ∧
      (reopenBack s).coverage =
        (if s.coverage.openFor = some s.openFrame then s.coverage else s.coverage.open s.openFrame) := by
  obtain ⟨hswap, -, hshown, -⟩ := stopClear_banks s
  have hc : (stopClear s).coverage = s.coverage := stopClear_writes s .coverage (by decide)
  by_cases h : s.coverage.openFor = some s.openFrame
  · rw [reopenBack_of_open h, if_pos h]
    exact ⟨hswap, rfl, hshown, rfl, hc⟩
  · rw [reopenBack_of_not_open h, if_neg h]
    exact ⟨hswap, rfl, hshown, rfl, by rw [← hc]; rfl⟩

theorem reopenBack_canonical {s : State} (h : BanksCanonical s) : BanksCanonical (reopenBack s) := by
  by_cases ho : s.coverage.openFor = some s.openFrame
  · rw [reopenBack_of_open ho]
    exact stopClear_canonical h
  · rw [reopenBack_of_not_open ho]
    exact stopClear_canonical h

theorem reopenBack_counts {s : State} (h : CoverageCounts s.coverage) : CoverageCounts (reopenBack s).coverage := by
  rw [(reopenBack_leaves s).2.2.2.2]
  split
  · exact h
  · exact open_counts h _

/-- The state a pending swap leaves before the back bank is reopened (R132). -/
def swapped (f : Frame) (s : State) : State :=
  raise .swaps 1 (s.setBanks { s.banks with front := s.banks.front.other, shown := some f, swapPending := none })

theorem completeSwap_of_pending {s : State} {f : Frame} (h : s.banks.swapPending = some f) :
    completeSwap s = reopenBack (swapped f s) := by
  rw [completeSwap, h]
  rfl

theorem completeSwap_of_none {s : State} (h : s.banks.swapPending = none) : completeSwap s = s := by
  rw [completeSwap, h]

theorem completeSwap_keeps (s : State) : KeepsInvariants s (completeSwap s) := by
  cases hswap : s.banks.swapPending with
  | none => exact .of_eq (completeSwap_of_none hswap)
  | some f =>
    have w := completeSwap_writes s
    rw [completeSwap_of_pending hswap] at w ⊢
    obtain ⟨hnone, -, -, hclear, hcoverage⟩ := reopenBack_leaves (swapped f s)
    have hopen : (swapped f s).openFrame = s.openFrame := rfl
    have hcov : (swapped f s).coverage = s.coverage := rfl
    have hmember := isMember_of_writes w (by decide)
    have hlanding : (reopenBack (swapped f s)).landing = s.landing := w .landing (by decide)
    have hengine : (reopenBack (swapped f s)).engine = s.engine := w .engine (by decide)
    have hstation : (reopenBack (swapped f s)).station = s.station := w .station (by decide)
    have hsettle : (reopenBack (swapped f s)).settle = s.settle := w .settle (by decide)
    have himage := image_of_writes w (by decide)
    have hport : (reopenBack (swapped f s)).port = (raise .swaps 1 s).port := reopenBack_writes _ .port (by decide)
    refine .of_writes w (capacity := fun _ c => ?_) (canonical := fun _ b => reopenBack_canonical ?_)
      (heldBack := fun _ p => ?_) (coverage := fun _ c => reopenBack_counts c) (landing := fun _ h => ?_)
    · have hraise := (raise_keeps .swaps 1 s).capacity c
      refine withinCapacity_of_writes (fs := [.banks, .freeSeq, .coverage]) (s := raise .swaps 1 s) ?_ (by decide) hraise
      exact .followedBy ((setBanks_writes (raise .swaps 1 s) _).widen (by decide)) (reopenBack_writes (swapped f s)) (by decide)
    · exact b
    · obtain ⟨-, hidle⟩ := p.swapping (by rw [hswap]; simp)
      have hm : s.station.state = .member := p.member_of_swap (by rw [hswap]; simp)
      refine .of_member (hstation ▸ hm) (by rw [hclear]; simp) (fun hs => absurd hnone hs) fun hp => ?_
      rw [hengine, hidle] at hp
      exact absurd hp (by simp)
    · have hsink : s.landing ≠ [] → s.coverage.openFor = some s.openFrame := fun hne =>
        h.openFor (h.sink hne).1 (h.sink hne).2
      constructor
      · rw [hlanding]
        exact h.pieces
      · rw [hlanding, himage, hcoverage, hopen, hcov]
        intro p hp
        rw [if_pos (hsink (List.ne_nil_of_mem hp))]
        exact h.claimed p hp
      · rw [hlanding, hsettle]
        exact h.frame
      · rw [hlanding, himage, hmember]
        exact h.sink
      · rw [himage, hmember, hcoverage, hsettle, hopen, hcov]
        intro hm hs
        have ho : s.coverage.openFor = some s.openFrame := h.openFor hm hs
        rw [if_pos ho]
        exact ho

theorem scanStart_keeps (s : State) : KeepsInvariants s (scanStart s) :=
  (completeSwap_keeps s).trans (.of_writes (setScan_writes _ _))

theorem scanOn_keeps (s : State) : KeepsInvariants s (scanOn s) := .of_writes (scanOn_writes s)

/-! ## Claims (R104, R108) -/

theorem fate_claimed {s : State} {p : Piece} (h : fate s p = .claimed) :
    s.isMember = true ∧ p.frame = s.openFrame ∧ s.landing.length < 16 ∧
      ∃ e, coverageEntry s.image s.coverage p.stream p.row p.index = some e ∧ e.claimed = false := by
  unfold fate at h
  split at h
  swap
  · exact absurd h (by simp)
  split at h
  · exact absurd h (by simp)
  next e he =>
    unfold fateOfExpected at h
    split at h
    · exact absurd h (by simp)
    next hm =>
      split at h
      · exact absurd h (by simp)
      split at h
      · exact absurd h (by simp)
      next hearly =>
        split at h
        · exact absurd h (by simp)
        next hclaimed =>
          split at h
          · exact absurd h (by simp)
          next hroom =>
            refine ⟨by simpa using hm, ?_, Nat.not_le.1 hroom, e, he, by simpa using hclaimed⟩
            have hzero : (p.frame - s.openFrame).toNat = 0 := by
              unfold forward at hearly
              omega
            exact BitVec.sub_eq_iff_eq_add.1 (BitVec.eq_of_toNat_eq hzero) |>.trans (BitVec.zero_add _)

/-- The table and the landing queue after a claim, before the reports of it. -/
def claimedPiece (p : Piece) (s : State) : State :=
  (s.setCoverage (s.coverage.claim s.image p.stream p.row p.index)).setLanding (s.landing ++ [p])

theorem claim_eq (p : Piece) (s : State) :
    claim p s = tryPlace (takeClaim p.stream p.row (raise .piecesClaimed 1 (claimedPiece p s))) := rfl

theorem claimedPiece_keeps {p : Piece} {s : State} (hsink : s.image.sinkRole = true) (h : fate s p = .claimed) :
    KeepsInvariants s (claimedPiece p s) := by
  obtain ⟨hm, hframe, hroom, e, he, hclear⟩ := fate_claimed h
  have w : OnlyWrites [.coverage, .landing] s (claimedPiece p s) :=
    .followedBy ((setCoverage_writes _ _).widen (by decide)) (setLanding_writes _ _) (by decide)
  have himage : (claimedPiece p s).image = s.image := rfl
  have hlanding : (claimedPiece p s).landing = s.landing ++ [p] := rfl
  have hcoverage : (claimedPiece p s).coverage = s.coverage.claim s.image p.stream p.row p.index := rfl
  refine .of_writes w (capacity := fun _ c => { c with landing := ?_ }) (heldBack := fun _ hb => ?_)
    (coverage := fun _ c => claim_counts c he hclear) (landing := fun _ hl => ?_)
  · rw [hlanding, List.length_append, List.length_singleton]
    omega
  · exact { hb with
      outsideMember := fun hn => absurd (isMember_iff.1 hm) hn
      placing := fun hp => ⟨(hb.placing hp).1, by rw [hlanding]; simp⟩ }
  · constructor
    · rw [hlanding, List.map_append]
      refine List.Nodup.append hl.pieces (List.nodup_singleton _) fun a ha hb => ?_
      obtain ⟨q, hq, rfl⟩ := List.mem_map.1 ha
      obtain ⟨x, hx, hxc⟩ := hl.claimed q hq
      have hkey : (q.stream, q.row, q.index) = (p.stream, p.row, p.index) := by simpa using hb
      simp only [Prod.mk.injEq] at hkey
      rw [hkey.1, hkey.2.1, hkey.2.2, he] at hx
      rw [Option.some.inj hx, hxc] at hclear
      exact absurd hclear (by simp)
    · rw [hlanding, himage, hcoverage]
      intro q hq
      rcases List.mem_append.1 hq with hq | hq
      · obtain ⟨x, hx, hxc⟩ := hl.claimed q hq
        exact coverageEntry_claim_claimed hx hxc _ _ _
      · rw [List.mem_singleton.1 hq]
        exact ⟨_, coverageEntry_claim _ _ _ _ _ _ he, rfl⟩
    · rw [hlanding]
      intro q hq
      rcases List.mem_append.1 hq with hq | hq
      · exact hl.frame q hq
      · rw [List.mem_singleton.1 hq]
        exact hframe
    · exact fun _ => ⟨hm, hsink⟩
    · exact hl.openFor

theorem claim_keeps {p : Piece} {s : State} (hsink : s.image.sinkRole = true) (h : fate s p = .claimed) :
    KeepsInvariants s (claim p s) := by
  have hstation : (takeClaim p.stream p.row (raise .piecesClaimed 1 (claimedPiece p s))).station = s.station :=
    takeClaim_writes _ _ _ .station (by decide)
  rw [claim_eq]
  refine .trans ?_ (tryPlace_keeps fun _ => ?_)
  · exact ((claimedPiece_keeps hsink h).trans (raise_keeps _ _ _)).trans (takeClaim_keeps _ _ _)
  · rw [hstation]
    exact isMember_iff.1 (fate_claimed h).1

theorem filterSegment_keeps {p : Piece} {s : State} (hsink : s.image.sinkRole = true) : KeepsInvariants s (filterSegment p s) := by
  unfold filterSegment
  split
  next => exact .refl
  next => exact .refl
  next => exact raise_keeps _ _ _
  next => exact raise_keeps _ _ _
  next => exact raise_keeps _ _ _
  next => exact raise_keeps _ _ _
  next h => exact claim_keeps hsink h

theorem takeSegment_keeps (m : SegmentFields) (s : State) : KeepsInvariants s (takeSegment m s) := by
  unfold takeSegment
  split
  next hsink =>
    dsimp only
    split
    next r _ =>
      refine (takeRepairMark_keeps r s).trans (filterSegment_keeps ?_)
      rw [image_of_writes (takeRepairMark_writes r s) (by decide)]
      exact hsink
    next => exact filterSegment_keeps hsink
  next => exact .refl

end Sys2Proof.Machine
end

section
/-! Settle notices and isolation: what they leave, block by block, and that they keep the invariants. -/

namespace Sys2Proof.Machine

/-! ## The notice at a source (R88, R161) -/

/-- The capture unit as a settle leaves it with open frame `f` (R88). -/
def lockedCapture (f : Frame) (c : Capture) : Capture :=
  { c with
    disposition := if c.state = .capturing then .skipped else c.disposition, published := false, rowCount := 0,
    offer := if c.input = .live then some f else none, state := if c.input = .live then .waiting else .dormant }

theorem lockOffer_of_source {s : State} (h : s.image.sourceRole = true) :
    lockOffer s = ((s.setCapture (lockedCapture s.openFrame s.capture)).setRing []).setPublishQueue [] := by
  rw [lockOffer, if_pos h]
  unfold cutCapture lockedCapture
  split
  next => rfl
  next => rfl

theorem sourceNotice_of_source {s : State} (h : s.image.sourceRole = true) : sourceNotice s =
    (((s.setCapture (lockedCapture s.openFrame s.capture)).setRing []).setPublishQueue []).setResponder .reset := by
  rw [sourceNotice, if_pos h, lockOffer_of_source h]
  rfl

theorem sourceNotice_of_not_source {s : State} (h : s.image.sourceRole = false) : sourceNotice s = s := by
  rw [sourceNotice, h]
  rfl

theorem setResponder_reset_keeps (s : State) : KeepsInvariants s (s.setResponder .reset) := by
  refine .of_writes (setResponder_writes _ _) (capacity := fun _ c => { c with
    repairQueue := Nat.zero_le _, replies := Nat.zero_le _, piecesServed := ?_, piecesAnswered := ?_ })
  · exact fun r hr => absurd hr (by simp [Responder.reset])
  · exact fun r hr => absurd hr (by simp [Responder.reset])

theorem lockedCapture_keeps {s : State} (hm : s.station.state = .member) (f : Frame) : KeepsInvariants s
    (((s.setCapture (lockedCapture f s.capture)).setRing []).setPublishQueue []) := by
  have w : OnlyWrites [.capture, .ring, .publishQueue] s
      (((s.setCapture (lockedCapture f s.capture)).setRing []).setPublishQueue []) := by
    refine .followedBy ?_ (setPublishQueue_writes _ _) (by decide)
    exact .followedBy ((setCapture_writes _ _).widen (by decide)) (setRing_writes _ _) (by decide)
  have hnot : s.station.state ≠ .loading := by rw [hm]; simp
  have hstate : (lockedCapture f s.capture).state ≠ .capturing := by
    unfold lockedCapture
    dsimp only
    split <;> simp
  refine .of_writes w (capacity := fun _ c => { c with
    ring := Nat.zero_le _, publishQueue := Nat.zero_le _, silence := c.silence, rowCount := Nat.zero_le _,
    rowCountCapturing := fun h => absurd h hstate, loading := fun h => absurd h hnot }) (offer := fun _ o => ?_)
    (ring := fun _ _ r => ?_)
  · refine ⟨?_, fun h => absurd h (by simp [lockedCapture]), fun h => absurd h hstate, fun _ => rfl, fun h => absurd hm h⟩
    simp only [State.setPublishQueue_capture, State.setRing_capture, State.setCapture_capture, lockedCapture]
    split <;> simp
  · refine ⟨List.Pairwise.nil, fun e he => absurd he (by simp), fun _ => rfl, fun _ => rfl⟩

theorem sourceNotice_keeps {s : State} (hm : s.station.state = .member) : KeepsInvariants s (sourceNotice s) := by
  cases h : s.image.sourceRole with
  | false => exact .of_eq (sourceNotice_of_not_source h)
  | true =>
    rw [sourceNotice_of_source h]
    exact (lockedCapture_keeps hm s.openFrame).trans (setResponder_reset_keeps _)

theorem setMembers_keeps {s : State} {l : List MemberEntry} (hlength : l.length = s.members.length)
    (hrounds : (∀ e ∈ s.members, e.rounds ≤ 15) → ∀ e ∈ l, e.rounds ≤ 15) : KeepsInvariants s (s.setMembers l) :=
  .of_writes (setMembers_writes _ _) (capacity := fun _ c => { c with
    members := ⟨hlength.trans c.members.1, hrounds c.members.2⟩ })

theorem recomputeEligibility_keeps (wasMember : Bool) (s : State) : KeepsInvariants s (recomputeEligibility wasMember s) := by
  refine setMembers_keeps (by simp) fun h e he => ?_
  obtain ⟨x, hx, rfl⟩ := List.mem_map.1 he
  exact h x hx

/-! ## The notice at bank control (R127 to R130) -/

theorem bankNotice_of_pending {s : State} {g : Frame} (h : s.banks.swapPending = some g) (a : Action) (f : Frame) (complete : Bool) :
    bankNotice a f complete s = noticeBehindSwap a f s := by
  rw [bankNotice, h]

theorem bankNotice_of_none {s : State} (h : s.banks.swapPending = none) (a : Action) (f : Frame) (complete : Bool) :
    bankNotice a f complete s = noticeAtOnce a f complete s := by
  rw [bankNotice, h]

theorem straggle_keeps (f : Frame) (d : Byte) (s : State) : KeepsInvariants s (straggle f d s) :=
  (post_keeps _ _ _ _).trans (raise_keeps _ _ _)

/-- The coverage table after a notice: opened for the open frame, unless the back bank is reopened with the table open already. -/
theorem bankNotice_coverage (a : Action) (f : Frame) (complete : Bool) (s : State) :
    (bankNotice a f complete s).coverage = s.coverage.open s.openFrame ∨
      (s.coverage.openFor = some s.openFrame ∧ (bankNotice a f complete s).coverage = s.coverage) := by
  have hreopen : ∀ u : State, u.coverage = s.coverage → u.openFrame = s.openFrame →
      (reopenBack u).coverage = s.coverage.open s.openFrame ∨
        (s.coverage.openFor = some s.openFrame ∧ (reopenBack u).coverage = s.coverage) := by
    intro u hc hf
    rw [(reopenBack_leaves u).2.2.2.2, hc, hf]
    split
    next h => exact .inr ⟨h, rfl⟩
    next => exact .inl rfl
  have hstraggle : ∀ d, (straggle f d s).coverage = s.coverage ∧ (straggle f d s).openFrame = s.openFrame := fun d =>
    ⟨straggle_writes f d s .coverage (by decide), by
      rw [State.openFrame, State.openFrame, show (straggle f d s).settle = s.settle from straggle_writes f d s .settle (by decide)]⟩
  cases hswap : s.banks.swapPending with
  | none =>
    rw [bankNotice_of_none hswap]
    unfold noticeAtOnce
    split
    · split
      · exact .inl rfl
      · exact hreopen _ (hstraggle 0).1 (hstraggle 0).2
    · exact hreopen s rfl rfl
    · exact hreopen s rfl rfl
    · exact .inl rfl
  | some g =>
    rw [bankNotice_of_pending hswap]
    refine .inl ?_
    unfold noticeBehindSwap
    split
    · rw [openCoverage, State.setCoverage_coverage, (hstraggle 1).1]
    · rfl
    · rfl
    · rfl

theorem bankNotice_openFor (a : Action) (f : Frame) (complete : Bool) (s : State) :
    (bankNotice a f complete s).coverage.openFor = some s.openFrame := by
  rcases bankNotice_coverage a f complete s with h | ⟨ho, h⟩
  · rw [h]
    rfl
  · rw [h, ho]

theorem reopenBack_capacity {s : State} (c : WithinCapacity s) : WithinCapacity (reopenBack s) :=
  withinCapacity_of_writes (reopenBack_writes s) (by decide) c

theorem bankNotice_capacity (a : Action) (f : Frame) (complete : Bool) {s : State} (c : WithinCapacity s) :
    WithinCapacity (bankNotice a f complete s) := by
  cases hswap : s.banks.swapPending with
  | none =>
    rw [bankNotice_of_none hswap]
    unfold noticeAtOnce
    split
    · split
      · exact { c with }
      · exact reopenBack_capacity ((straggle_keeps f 0 s).capacity c)
    · exact reopenBack_capacity c
    · exact reopenBack_capacity c
    · exact { c with }
  | some g =>
    rw [bankNotice_of_pending hswap]
    unfold noticeBehindSwap
    refine withinCapacity_of_writes (openCoverage_writes _ _) (by decide) ?_
    split
    · exact (straggle_keeps f 1 s).capacity c
    · exact c
    · exact c
    · exact c

theorem bankNotice_canonical (a : Action) (f : Frame) (complete : Bool) {s : State} (b : BanksCanonical s) :
    BanksCanonical (bankNotice a f complete s) := by
  have hstraggle : BanksCanonical (straggle f 0 s) := (straggle_keeps f 0 s).canonical b
  cases hswap : s.banks.swapPending with
  | none =>
    rw [bankNotice_of_none hswap]
    unfold noticeAtOnce
    split
    · split
      · exact b
      · exact reopenBack_canonical hstraggle
    · exact reopenBack_canonical b
    · exact reopenBack_canonical b
    · exact b
  | some g =>
    rw [bankNotice_of_pending hswap]
    exact banksCanonical_of_writes (noticeBehindSwap_writes a f s) (by decide) b

theorem bankNotice_counts (a : Action) (f : Frame) (complete : Bool) {s : State} (c : CoverageCounts s.coverage) :
    CoverageCounts (bankNotice a f complete s).coverage := by
  rcases bankNotice_coverage a f complete s with h | ⟨-, h⟩
  · rw [h]
    exact open_counts c _
  · rwa [h]

/-- A MEMBER's bank is reopened: the clear in flight is the back bank's, with the engine IDLE. -/
theorem reopenBack_heldBack {s : State} (hm : s.station.state = .member) (hidle : s.engine = .idle)
    (hswap : s.banks.swapPending = none) : PlacementHeldBack (reopenBack s) := by
  have w := reopenBack_writes s
  obtain ⟨hnone, -, -, hclear, -⟩ := reopenBack_leaves s
  have hstation : (reopenBack s).station = s.station := w .station (by decide)
  have hengine : (reopenBack s).engine = s.engine := w .engine (by decide)
  refine .of_member (hstation ▸ hm) (by rw [hclear]; simp) (fun h => absurd (hnone.trans hswap) h) fun h => ?_
  rw [hengine, hidle] at h
  exact absurd h (by simp)

/-- A notice holds placement back: a swap is set pending only with the sink complete, so with no clear in flight (R129). -/
theorem bankNotice_heldBack (a : Action) (f : Frame) {complete : Bool} {s : State} (hm : s.station.state = .member)
    (hidle : s.engine = .idle) (hcomplete : complete = true → s.banks.clear = .idle) (p : PlacementHeldBack s) :
    PlacementHeldBack (bankNotice a f complete s) := by
  cases hswap : s.banks.swapPending with
  | none =>
    have hnot : s.engine ≠ .placing := by rw [hidle]; simp
    rw [bankNotice_of_none hswap]
    unfold noticeAtOnce
    split
    · split
      next hc =>
        exact .of_member hm (p.clear_of_member hm) (fun _ => ⟨hcomplete hc, hidle⟩) fun h => absurd h hnot
      next =>
        have w := straggle_writes f 0 s
        have hstation : (straggle f 0 s).station = s.station := w .station (by decide)
        have hengine : (straggle f 0 s).engine = s.engine := w .engine (by decide)
        have hbanks : (straggle f 0 s).banks = s.banks := w .banks (by decide)
        exact reopenBack_heldBack (hstation ▸ hm) (hengine ▸ hidle) (hbanks ▸ hswap)
    · exact reopenBack_heldBack hm hidle hswap
    · exact reopenBack_heldBack hm hidle hswap
    · exact .of_member hm (p.clear_of_member hm) (fun h => absurd hswap h) fun h => absurd h hnot
  | some g =>
    rw [bankNotice_of_pending hswap]
    exact placementHeldBack_of_writes (noticeBehindSwap_writes a f s) (by decide) p

/-! ## The notice at a sink (R80, R113, R149) -/

theorem discardLanding_keeps (s : State) : KeepsInvariants s (discardLanding s) := by
  have w := discardLanding_writes s
  obtain ⟨hswap, -, -, hclear⟩ := stopPlacement_banks s
  have hstation : (discardLanding s).station = s.station := w .station (by decide)
  have hloader : (discardLanding s).loader = s.loader := w .loader (by decide)
  have hswap' : (discardLanding s).banks.swapPending = s.banks.swapPending := hswap
  have hclear' : (discardLanding s).banks.clear = s.banks.clear := hclear
  have hmember := isMember_of_writes w (by decide)
  have himage := image_of_writes w (by decide)
  have hcoverage : (discardLanding s).coverage = s.coverage := w .coverage (by decide)
  have hsettle : (discardLanding s).settle = s.settle := w .settle (by decide)
  refine .of_writes w (capacity := fun _ c => ?_) (canonical := fun _ b => stopPlacement_canonical b)
    (heldBack := fun _ p => ?_) (landing := fun _ h => ?_)
  · have c' : WithinCapacity (stopPlacement s) := withinCapacity_of_writes (stopPlacement_writes s) (by decide) c
    exact { c' with landing := Nat.zero_le _ }
  · have houtside := p.outsideMember
    obtain ⟨-, hreading, hclearing, hswapping, -⟩ := p
    constructor
    · rw [hstation, hswap']
      exact fun h => ⟨rfl, discardLanding_engine s, (houtside h).2.2⟩
    · rwa [hstation, hloader, hclear']
    · rwa [hstation, hclear']
    · rw [hswap', hclear']
      exact fun h => ⟨(hswapping h).1, discardLanding_engine s⟩
    · rw [discardLanding_engine]
      exact fun h => absurd h (by simp)
  · refine ⟨by simp, fun q hq => absurd hq (by simp), fun q hq => absurd hq (by simp), fun hn => absurd rfl hn, ?_⟩
    rw [hmember, himage, hcoverage, hsettle]
    exact h.openFor

theorem sinkNotice_of_sink {s : State} (h : s.image.sinkRole = true) (a : Action) (f : Frame) (complete : Bool) :
    sinkNotice a f complete s = overtakeEntries (bankNotice a f complete (discardLanding s)) := by
  rw [sinkNotice, if_pos h]

theorem sinkNotice_of_not_sink {s : State} (h : s.image.sinkRole = false) (a : Action) (f : Frame) (complete : Bool) :
    sinkNotice a f complete s = s := by
  rw [sinkNotice, h]
  rfl

theorem sinkNotice_keeps (a : Action) (f : Frame) {complete : Bool} {s : State} (hm : s.station.state = .member)
    (hcomplete : complete = true → s.banks.clear = .idle) : KeepsButLanding s (sinkNotice a f complete s) := by
  cases hsink : s.image.sinkRole with
  | false => exact (KeepsInvariants.of_eq (sinkNotice_of_not_sink hsink a f complete)).toKeepsButLanding
  | true =>
    rw [sinkNotice_of_sink hsink]
    refine .trans ?_ (overtakeEntries_keeps _).toKeepsButLanding
    refine (discardLanding_keeps s).toKeepsButLanding.trans ?_
    have hstation : (discardLanding s).station = s.station := discardLanding_writes s .station (by decide)
    have hclear : (discardLanding s).banks.clear = s.banks.clear := (stopPlacement_banks s).2.2.2
    refine .of_writes (bankNotice_writes a f complete _) (capacity := fun _ => bankNotice_capacity a f complete)
      (canonical := fun _ => bankNotice_canonical a f complete)
      (heldBack := fun _ => bankNotice_heldBack a f (hstation ▸ hm) (discardLanding_engine s) fun h => hclear ▸ hcomplete h)
      (coverage := fun _ => bankNotice_counts a f complete)

/-! ## The notice as a whole (R80) -/

theorem notice_keeps (a : Action) (f : Frame) {complete : Bool} (wasMember : Bool) {s : State} (hm : s.station.state = .member)
    (hcomplete : complete = true → s.banks.clear = .idle) : KeepsButLanding s (notice a f complete wasMember s) := by
  unfold notice
  have hstation : (sourceNotice (recomputeEligibility wasMember s)).station = s.station :=
    sourceNotice_writes _ .station (by decide)
  have hbanks : (sourceNotice (recomputeEligibility wasMember s)).banks = s.banks := sourceNotice_writes _ .banks (by decide)
  refine .trans ?_ (sinkNotice_keeps a f (hstation ▸ hm) fun h => hbanks ▸ hcomplete h)
  exact ((recomputeEligibility_keeps wasMember s).trans (sourceNotice_keeps hm)).toKeepsButLanding

/-- A notice empties a sink's landing queue and has its table open for the open frame, whatever frame it was open for. -/
theorem notice_landing (a : Action) (f : Frame) (complete wasMember : Bool) {s : State}
    (h : s.image.sinkRole = false → s.landing = []) : LandingInOrder (notice a f complete wasMember s) := by
  have w := notice_writes a f complete wasMember s
  have himage := image_of_writes w (by decide)
  have hsettle : (notice a f complete wasMember s).settle = s.settle := w .settle (by decide)
  have hu : (sourceNotice (recomputeEligibility wasMember s)).image = s.image :=
    (image_of_writes (s := recomputeEligibility wasMember s) (sourceNotice_writes _) (by decide)).trans rfl
  have hlanding : (notice a f complete wasMember s).landing = [] ∧
      (s.image.sinkRole = true → (notice a f complete wasMember s).coverage.openFor = some (s.settle.frame + 1)) := by
    unfold notice
    cases hsink : s.image.sinkRole with
    | false =>
      rw [sinkNotice_of_not_sink (hu.symm ▸ hsink)]
      refine ⟨(sourceNotice_writes _ .landing (by decide)).trans (h hsink), fun hs => absurd hs (by simp)⟩
    | true =>
      rw [sinkNotice_of_sink (hu.symm ▸ hsink)]
      refine ⟨bankNotice_writes _ _ _ _ .landing (by decide), fun _ => ?_⟩
      refine (bankNotice_openFor _ _ _ _).trans ?_
      rw [State.openFrame, show (discardLanding _).settle = _ from discardLanding_writes _ .settle (by decide),
        show (sourceNotice _).settle = _ from sourceNotice_writes _ .settle (by decide)]
      rfl
  refine ⟨?_, ?_, ?_, ?_, ?_⟩
  · rw [hlanding.1]
    exact List.nodup_nil
  · rw [hlanding.1]
    exact fun q hq => absurd hq (by simp)
  · rw [hlanding.1]
    exact fun q hq => absurd hq (by simp)
  · exact fun hn => absurd hlanding.1 hn
  · rw [himage, hsettle]
    exact fun _ => hlanding.2

theorem notice_front (a : Action) (f : Frame) (complete wasMember : Bool) (s : State) :
    FrontKept s (notice a f complete wasMember s) := by
  unfold notice sinkNotice
  have hbefore : FrontKept s (sourceNotice (recomputeEligibility wasMember s)) :=
    .trans (.of_writes (recomputeEligibility_writes _ _) (by decide)) (.of_writes (sourceNotice_writes _) (by decide))
  split
  · refine hbefore.trans ?_
    refine .trans ?_ (.of_writes (overtakeEntries_writes _) (by decide))
    exact (discardLanding_front _).trans (bankNotice_front _ _ _ _)
  · exact hbefore

/-! ## Settles (R63, R64) -/

theorem advance_keeps (f : Frame) (k : SettleKind) (s : State) : KeepsButLanding s (advance f k s) :=
  .of_writes (advance_writes f k s) (capacity := fun _ c => { c with openAge := Nat.zero_le _ })

theorem LandingInOrder.nil_of_not_sink {s : State} (h : LandingInOrder s) (hs : s.image.sinkRole = false) : s.landing = [] := by
  by_contra hn
  exact absurd ((h.sink hn).2.symm.trans hs) (by simp)

/-- A settle: the frame advances, the port is told, and the notice follows. -/
theorem keeps_of_notice {s u : State} (a : Action) (f : Frame) {complete : Bool} (hm : s.station.state = .member)
    (hkeeps : KeepsButLanding s u) (w : OnlyWrites [.settle, .port] s u) (hcomplete : complete = true → s.banks.clear = .idle) :
    KeepsInvariants s (notice a f complete true u) := by
  have hstation : u.station = s.station := w .station (by decide)
  have hbanks : u.banks = s.banks := w .banks (by decide)
  have hlanding : u.landing = s.landing := w .landing (by decide)
  have himage := image_of_writes w (by decide)
  refine ⟨hkeeps.trans (notice_keeps a f true (hstation ▸ hm) fun h => hbanks ▸ hcomplete h), fun h => notice_landing _ _ _ _ ?_⟩
  rw [himage, hlanding]
  exact h.nil_of_not_sink

theorem completeFor_clear {s : State} {f : Frame} (h : completeFor s f = true) : s.banks.clear = .idle :=
  (completeFor_iff.1 h).clear

theorem settleCommit_keeps {s : State} (hm : s.station.state = .member) : KeepsInvariants s (settleCommit s) := by
  refine keeps_of_notice _ _ hm ?_ ?_ completeFor_clear
  · exact (advance_keeps _ _ _).trans (raise_keeps _ _ _).toKeepsButLanding
  · exact .followedBy ((advance_writes _ _ _).widen (by decide)) (raise_writes _ _ _) (by decide)

theorem settleAbandon_keeps {s : State} (hm : s.station.state = .member) (path : SettlePath) :
    KeepsInvariants s (settleAbandon path s) := by
  refine keeps_of_notice _ _ hm ?_ ?_ (fun h => absurd h (by simp))
  · refine .trans ?_ (post_keeps _ _ _ _).toKeepsButLanding
    exact (advance_keeps _ _ _).trans (raise_keeps _ _ _).toKeepsButLanding
  · refine .followedBy ?_ (post_writes _ _ _ _) (by decide)
    exact .followedBy ((advance_writes _ _ _).widen (by decide)) (raise_writes _ _ _) (by decide)

theorem resync_keeps {s : State} (hm : s.station.state = .member) (f : Frame) (k : SettleKind) :
    KeepsInvariants s (resync f k s) := by
  refine keeps_of_notice _ _ hm ?_ ?_ (fun h => absurd h (by simp))
  · refine .trans ?_ (post_keeps _ _ _ _).toKeepsButLanding
    exact (advance_keeps _ _ _).trans (raise_keeps _ _ _).toKeepsButLanding
  · refine .followedBy ?_ (post_writes _ _ _ _) (by decide)
    exact .followedBy ((advance_writes _ _ _).widen (by decide)) (raise_writes _ _ _) (by decide)

theorem settleCommit_front (s : State) : FrontKept s (settleCommit s) := by
  refine .trans ?_ (notice_front _ _ _ _ _)
  exact .trans (.of_writes (advance_writes _ _ s) (by decide)) (.of_writes (raise_writes _ _ _) (by decide))

theorem settleAbandon_front (path : SettlePath) (s : State) : FrontKept s (settleAbandon path s) := by
  refine .trans ?_ (notice_front _ _ _ _ _)
  refine .trans ?_ (.of_writes (post_writes _ _ _ _) (by decide))
  exact .trans (.of_writes (advance_writes _ _ s) (by decide)) (.of_writes (raise_writes _ _ _) (by decide))

theorem resync_front (f : Frame) (k : SettleKind) (s : State) : FrontKept s (resync f k s) := by
  refine .trans ?_ (notice_front _ _ _ _ _)
  refine .trans ?_ (.of_writes (post_writes _ _ _ _) (by decide))
  exact .trans (.of_writes (advance_writes _ _ s) (by decide)) (.of_writes (raise_writes _ _ _) (by decide))

end Sys2Proof.Machine
end

section
/-! The repair responder, the membership table, and the station's own changes of state: what each keeps. -/

namespace Sys2Proof.Machine

/-! ## The repair responder (R151, R157, R160) -/

/-- The responder's own bounds (R151). -/
structure Responder.Fits (r : Responder) : Prop where
  queue : r.queue.length ≤ 8
  replies : r.replies.length ≤ 4
  served : ∀ q ∈ r.queue, q.sent ≤ 4095 ∧ q.gone ≤ 4095
  answered : ∀ m ∈ r.replies, m.sent ≤ 4095 ∧ m.gone ≤ 4095

theorem eq_setResponder_setPort_of_writes {s t : State} (w : OnlyWrites [.responder, .port] s t) :
    t = (s.setResponder t.responder).setPort t.port := by
  refine eq_of_same fun f => ?_
  by_cases hf : f ∈ [Field.responder, .port]
  · fin_cases hf <;> rfl
  · have hsame := w f hf
    cases f <;> first | exact hsame | exact absurd (by decide) hf

theorem keeps_of_responder {s t : State} (w : OnlyWrites [.responder, .port] s t) (hport : s.port.Fits → t.port.Fits)
    (h : s.responder.Fits → t.responder.Fits) : KeepsInvariants s t := by
  refine .of_writes w (capacity := fun _ c => ?_)
  obtain ⟨hevents, hdropped, hcounters⟩ := hport ⟨c.events, c.dropped, c.counters⟩
  obtain ⟨hqueue, hreplies, hserved, hanswered⟩ := h ⟨c.repairQueue, c.replies, c.piecesServed, c.piecesAnswered⟩
  rw [eq_setResponder_setPort_of_writes w]
  exact { c with
    events := hevents, dropped := hdropped, counters := hcounters, repairQueue := hqueue, replies := hreplies,
    piecesServed := hserved, piecesAnswered := hanswered }

/-- The counts of pieces gone stay within their bound on a walk (R151, R157). -/
def WalkEnd.Fits : WalkEnd → Prop
  | .found _ _ gone => gone ≤ 4095
  | .exhausted gone => gone ≤ 4095

theorem walk_fits (ring : List RingEntry) (l : List Cursor) : ∀ gone, gone ≤ 4095 → (walk ring l gone).Fits := by
  induction l with
  | nil => exact fun _ h => h
  | cons c l ih =>
    intro gone h
    unfold walk
    split
    · exact h
    · exact ih _ (saturate_le _ _ _)

theorem offerReply_fits {m : StatusFields} {s : State} (hm : m.sent ≤ 4095 ∧ m.gone ≤ 4095) (h : s.responder.Fits) :
    (offerReply m s).responder.Fits := by
  unfold offerReply Config.replyQueueSize
  split
  next hroom =>
    refine ⟨h.queue, ?_, h.served, fun x hx => ?_⟩
    · rw [State.setResponder_responder, List.length_append, List.length_singleton]
      omega
    · rcases List.mem_append.1 hx with hx | hx
      · exact h.answered x hx
      · exact List.mem_singleton.1 hx ▸ hm
  next => exact h

theorem offerReply_port_fits {m : StatusFields} {s : State} (h : s.port.Fits) : (offerReply m s).port.Fits := by
  unfold offerReply
  split
  · exact h
  · exact Fits_raise _ _ h

theorem offerReply_keeps {m : StatusFields} (hm : m.sent ≤ 4095 ∧ m.gone ≤ 4095) (s : State) : KeepsInvariants s (offerReply m s) :=
  keeps_of_responder (offerReply_writes m s) offerReply_port_fits (offerReply_fits hm)

/-- The requests that wait behind one that is served fit in a queue with it. -/
def Waiting (l : List QueuedRequest) : Prop := l.length ≤ 8 ∧ ∀ q ∈ l, q.sent ≤ 4095 ∧ q.gone ≤ 4095

theorem Waiting.rest {r : QueuedRequest} {l : List QueuedRequest} (h : Waiting (r :: l)) : Waiting l :=
  ⟨le_trans (Nat.le_succ _) h.1, fun q hq => h.2 q (List.mem_cons_of_mem _ hq)⟩

/-- A walk's end keeps the bounds when what follows an ended service keeps them. -/
theorem afterWalk_fits {r : QueuedRequest} {rest : List QueuedRequest} (hw : Waiting (r :: rest)) {next : State → State}
    (hnext : ∀ s : State, s.responder.Fits → (next s).responder.Fits) {s : State} (h : s.responder.Fits) {e : WalkEnd}
    (he : e.Fits) : (afterWalk r rest next s e).responder.Fits := by
  have hsent := (hw.2 r List.mem_cons_self).1
  cases e with
  | found c x gone =>
    refine ⟨hw.1, h.replies, fun q hq => ?_, h.answered⟩
    rcases List.mem_cons.1 hq with rfl | hq
    · exact ⟨hsent, he⟩
    · exact hw.rest.2 q hq
  | exhausted gone => exact hnext _ (offerReply_fits ⟨hsent, he⟩ h)

theorem afterWalk_port_fits {r : QueuedRequest} {rest : List QueuedRequest} {next : State → State}
    (hnext : ∀ s : State, s.port.Fits → (next s).port.Fits) {s : State} (h : s.port.Fits) (e : WalkEnd) :
    (afterWalk r rest next s e).port.Fits := by
  cases e with
  | found c x gone => exact h
  | exhausted gone => exact hnext _ (offerReply_port_fits h)

theorem serve_fits (l : List QueuedRequest) (hl : Waiting l) : ∀ s : State, s.responder.Fits → (serve l s).responder.Fits := by
  induction l with
  | nil => exact fun s h => ⟨Nat.zero_le _, h.replies, fun q hq => absurd hq (by simp [serve]), h.answered⟩
  | cons r rest ih =>
    exact fun s h => afterWalk_fits hl (ih hl.rest) h (walk_fits _ _ _ (hl.2 r List.mem_cons_self).2)

theorem serve_port_fits (l : List QueuedRequest) : ∀ s : State, s.port.Fits → (serve l s).port.Fits := by
  induction l with
  | nil => exact fun _ h => h
  | cons r rest ih => exact fun s h => afterWalk_port_fits ih h _

/-- The slot's segment has passed: the head request with one piece more sent, the slot empty (R158). -/
theorem slotPassed_eq {s : State} {r : QueuedRequest} {rest : List QueuedRequest} {c : Cursor} (hq : s.responder.queue = r :: rest)
    (hc : s.responder.cursor = some c) : slotPassed s =
      afterWalk { r with sent := saturate Config.serviceCount r.sent 1 } rest (serve rest)
        ((raise .repairSegmentsSent 1 s).setResponder { s.responder with slot := none })
        (walk s.ring (piecesAfter c (requestPieces (ownEntry s) r.fields)) r.gone) := by
  rw [slotPassed, hq, hc]
  rfl

theorem slotPassed_of_nil {s : State} (hq : s.responder.queue = []) : slotPassed s = s := by
  rw [slotPassed, hq]

theorem slotPassed_of_none {s : State} (hc : s.responder.cursor = none) : slotPassed s = s := by
  unfold slotPassed
  split
  next h => exact absurd (hc.symm.trans h) (by simp)
  next => rfl

theorem slotPassed_keeps (s : State) : KeepsInvariants s (slotPassed s) := by
  have w := slotPassed_writes s
  cases hq : s.responder.queue with
  | nil => exact .of_eq (slotPassed_of_nil hq)
  | cons r rest =>
    cases hc : s.responder.cursor with
    | none => exact .of_eq (slotPassed_of_none hc)
    | some c =>
      rw [slotPassed_eq hq hc] at w ⊢
      refine keeps_of_responder w (fun h => ?_) fun h => ?_
      · have hraised : (raise .repairSegmentsSent 1 s).port.Fits := Fits_raise _ _ h
        exact afterWalk_port_fits (s := (raise .repairSegmentsSent 1 s).setResponder { s.responder with slot := none })
          (serve_port_fits rest) hraised _
      · have hwait : Waiting ({ r with sent := saturate Config.serviceCount r.sent 1 } :: rest) := by
          have hlen := h.queue
          have hall := h.served
          rw [hq] at hlen hall
          refine ⟨hlen, fun q hmem => ?_⟩
          rcases List.mem_cons.1 hmem with rfl | hmem
          · exact ⟨saturate_le _ _ _, (hall r List.mem_cons_self).2⟩
          · exact hall q (List.mem_cons_of_mem _ hmem)
        refine afterWalk_fits (s := (raise .repairSegmentsSent 1 s).setResponder { s.responder with slot := none }) hwait
          (serve_fits rest hwait.rest) ⟨h.queue, h.replies, h.served, h.answered⟩ (walk_fits _ _ _ ?_)
        exact (h.served r (by rw [hq]; exact List.mem_cons_self)).2

theorem statusPassed_keeps (s : State) : KeepsInvariants s (statusPassed s) := by
  refine keeps_of_responder ((statusPassed_writes s).widen (by decide)) (Fits_of_same rfl) fun h => ?_
  refine ⟨h.queue, ?_, h.served, fun m hm => h.answered m (List.mem_of_mem_drop hm)⟩
  show (s.responder.replies.drop 1).length ≤ 4
  rw [List.length_drop]
  exact le_trans (Nat.sub_le _ _) h.replies

theorem acceptRequest_of_nil {s : State} (hq : s.responder.queue = []) (k : Nat) (q : RequestFields) :
    acceptRequest k q s = serve [{ requester := k, fields := q, sent := 0, gone := 0 }] s := by
  rw [acceptRequest, hq]

theorem acceptRequest_of_ne_nil {s : State} (hq : s.responder.queue ≠ []) (k : Nat) (q : RequestFields) :
    acceptRequest k q s = s.setResponder { s.responder with
      queue := s.responder.queue ++ [{ requester := k, fields := q, sent := 0, gone := 0 }] } := by
  unfold acceptRequest
  split
  next h => exact absurd h hq
  next => rfl

theorem acceptRequest_keeps {s : State} (hroom : s.responder.queue.length < 8) (k : Nat) (q : RequestFields) :
    KeepsInvariants s (acceptRequest k q s) := by
  have w := acceptRequest_writes k q s
  by_cases hq : s.responder.queue = []
  · rw [acceptRequest_of_nil hq] at w ⊢
    exact keeps_of_responder w (serve_port_fits _ s) (serve_fits _ ⟨by simp, by simp⟩ s)
  · rw [acceptRequest_of_ne_nil hq] at w ⊢
    refine keeps_of_responder w (Fits_of_same rfl) fun h => ⟨?_, h.replies, fun x hx => ?_, h.answered⟩
    · rw [State.setResponder_responder, List.length_append, List.length_singleton]
      omega
    · rcases List.mem_append.1 hx with hx | hx
      · exact h.served x hx
      · rw [List.mem_singleton.1 hx]
        exact ⟨Nat.zero_le _, Nat.zero_le _⟩

theorem testRequest_keeps (k : Nat) (q : RequestFields) (s : State) : KeepsInvariants s (testRequest k q s) := by
  have hreply : ∀ o, KeepsInvariants s (offerReply (immediateStatus k q o) s) := fun o =>
    offerReply_keeps ⟨Nat.zero_le _, Nat.zero_le _⟩ s
  unfold testRequest
  split
  · exact raise_keeps _ _ _
  split
  · exact hreply _
  split
  · exact hreply _
  split
  · exact .refl
  split
  · exact (hreply _).trans (raise_keeps _ _ _)
  next hroom => exact acceptRequest_keeps (Nat.lt_of_not_le hroom) _ _

theorem takeRequest_keeps (k : Nat) (q : RequestFields) (s : State) : KeepsInvariants s (takeRequest k q s) := by
  unfold takeRequest
  split
  · exact testRequest_keeps _ _ _
  · exact .refl

/-! ## The membership table (R55 to R57) -/

theorem setMember_keeps {s : State} {k : Nat} {e : MemberEntry} (h : (∀ x ∈ s.members, x.rounds ≤ 15) → e.rounds ≤ 15) :
    KeepsInvariants s (s.setMember k e) := by
  refine setMembers_keeps (by simp) fun hall x hx => ?_
  rcases List.mem_or_eq_of_mem_set hx with hx | rfl
  · exact hall x hx
  · exact h hall

theorem member_rounds {s : State} (h : ∀ x ∈ s.members, x.rounds ≤ 15) (k : Nat) : (s.member k).rounds ≤ 15 := by
  unfold State.member
  rcases Nat.lt_or_ge k s.members.length with hk | hk
  · rw [List.getD_eq_getElem _ _ hk]
    exact h _ (List.getElem_mem hk)
  · rw [List.getD_eq_default _ _ hk]
    exact Nat.zero_le _

theorem tableTakeState_keeps (k : Nat) (m : StateFields) (s : State) : KeepsInvariants s (tableTakeState k m s) := by
  unfold tableTakeState
  split
  · exact setMember_keeps fun h => member_rounds h k
  split
  · have hset := fun e : MemberEntry => fun he : e.rounds = 0 =>
      setMember_keeps (s := s) (k := k) (e := e) fun _ => he ▸ Nat.zero_le _
    unfold takeMatching
    dsimp only
    split
    · exact hset _ rfl
    · exact (hset _ rfl).trans (post_keeps _ _ _ _)
  · have hset := fun e : MemberEntry => fun he : e.rounds = 0 =>
      setMember_keeps (s := s) (k := k) (e := e) fun _ => he ▸ Nat.zero_le _
    unfold takeDiffering
    dsimp only
    split
    · exact hset _ rfl
    · exact (hset _ rfl).trans (post_keeps _ _ _ _)

theorem aged_rounds {e : MemberEntry} (h : e.rounds ≤ 15) (limit : Nat) : (e.aged limit).rounds ≤ 15 := by
  unfold MemberEntry.aged
  dsimp only
  split
  · split <;> exact saturate_le _ _ _
  · exact h

theorem ageMember_keeps (s : State) (k : Nat) : KeepsInvariants s (ageMember s k) := by
  have hset : KeepsInvariants s (s.setMember k ((s.member k).aged s.image.absenceLimit)) :=
    setMember_keeps fun h => aged_rounds (member_rounds h k) _
  unfold ageMember
  dsimp only
  split
  · exact hset.trans (post_keeps _ _ _ _)
  · exact hset

theorem foldl_keeps {α : Type} (g : State → α → State) (h : ∀ s a, KeepsInvariants s (g s a)) (l : List α) :
    ∀ s, KeepsInvariants s (l.foldl g s) := by
  induction l with
  | nil => exact fun _ => .refl
  | cons a l ih => exact fun s => (h s a).trans (ih _)

theorem tableRoundStart_keeps (s : State) : KeepsInvariants s (tableRoundStart s) := foldl_keeps _ ageMember_keeps _ _

theorem forgetMember_keeps (s : State) (k : Nat) : KeepsInvariants s (forgetMember s k) := by
  unfold forgetMember
  dsimp only
  split
  · refine .trans ?_ (post_keeps _ _ _ _)
    exact setMember_keeps fun h => member_rounds h k
  · exact .refl

theorem forgetMembers_keeps (s : State) : KeepsInvariants s (forgetMembers s) := foldl_keeps _ forgetMember_keeps _ _

/-! ## Isolation (R52) -/

/-- The blocks behind the bus interface give up their work (R52). -/
def giveUpWork (s : State) : State := overtakeEntries (isolateBanks (discardLanding (purgeResponder (isolateCapture s))))

/-- The station is ISOLATED and has told the board, its bus interface is silent. -/
def enterIsolated (code : FaultCode) (s : State) : State :=
  isolateBus (post .isolated s.settle.frame code.code (s.setStation { s.station with state := .isolated, fault := code }))

theorem isolate_eq (code : FaultCode) (s : State) : isolate code s = giveUpWork (enterIsolated code s) := rfl

theorem giveUpWork_writes (s : State) : OnlyWrites [.capture, .ring, .publishQueue, .responder, .landing, .banks, .engine, .freeSeq,
    .requester] s (giveUpWork s) := by
  unfold giveUpWork
  refine .followedBy ?_ (overtakeEntries_writes _) (by decide)
  refine .followedBy ?_ (isolateBanks_writes _) (by decide)
  refine .followedBy ?_ (discardLanding_writes _) (by decide)
  refine .followedBy ?_ (purgeResponder_writes _) (by decide)
  exact (isolateCapture_writes _).widen (by decide)

theorem isolateCapture_eq (s : State) : isolateCapture s = ((s.setCapture { s.capture with
    disposition := if s.capture.state = .capturing then .skipped else s.capture.disposition, state := .dormant, offer := none,
    published := false }).setRing []).setPublishQueue [] := by
  unfold isolateCapture cutCapture
  split <;> rfl

theorem giveUpWork_capture (s : State) : (giveUpWork s).capture = { s.capture with
    disposition := if s.capture.state = .capturing then .skipped else s.capture.disposition, state := .dormant, offer := none,
    published := false } := by
  have h : (giveUpWork s).capture = (isolateCapture s).capture := by
    refine .trans (b := (discardLanding (purgeResponder (isolateCapture s))).capture) ?_ (discardLanding_writes _ .capture (by decide))
    exact isolateBanks_writes _ .capture (by decide)
  rw [h, isolateCapture_eq]
  rfl

theorem giveUpWork_stores (s : State) : (giveUpWork s).ring = [] ∧ (giveUpWork s).publishQueue = [] ∧
    (giveUpWork s).landing = [] ∧ (giveUpWork s).engine = .idle ∧ (giveUpWork s).responder = .reset := by
  have hbanks : ∀ u f, f ∉ [Field.banks, .freeSeq] → f.same u (isolateBanks u) := fun u f hf => isolateBanks_writes u f hf
  have hdiscard : ∀ u f, f ∉ [Field.landing, .banks, .engine, .freeSeq] → f.same u (discardLanding u) := fun u f hf =>
    discardLanding_writes u f hf
  refine ⟨?_, ?_, ?_, ?_, ?_⟩
  · refine (hbanks _ .ring (by decide)).trans ((hdiscard _ .ring (by decide)).trans ?_)
    rw [isolateCapture_eq]
    rfl
  · refine (hbanks _ .publishQueue (by decide)).trans ((hdiscard _ .publishQueue (by decide)).trans ?_)
    rw [isolateCapture_eq]
    rfl
  · exact (hbanks _ .landing (by decide)).trans rfl
  · exact (hbanks _ .engine (by decide)).trans (discardLanding_engine _)
  · exact (hbanks _ .responder (by decide)).trans (hdiscard _ .responder (by decide))

theorem giveUpWork_banks (s : State) : (s.banks.clear ≠ .clearingBoth → (giveUpWork s).banks.clear = .idle) ∧
    (giveUpWork s).banks.swapPending = none ∧ FrontKept s (giveUpWork s) ∧ (giveUpWork s).banks.shown = s.banks.shown := by
  obtain ⟨-, -, hshown, hclear⟩ := stopClear_banks (discardLanding (purgeResponder (isolateCapture s)))
  obtain ⟨-, -, hshown', hclear'⟩ := stopPlacement_banks (purgeResponder (isolateCapture s))
  have hcapture : (purgeResponder (isolateCapture s)).banks = s.banks := isolateCapture_writes s .banks (by decide)
  refine ⟨fun h => ?_, rfl, ?_, ?_⟩
  · refine hclear.trans ?_
    rw [show (discardLanding (purgeResponder (isolateCapture s))).banks.clear = s.banks.clear from hclear'.trans (by rw [hcapture])]
    cases hc : s.banks.clear with
    | idle => rfl
    | clearingBack => rfl
    | clearingBoth => exact absurd hc h
  · refine .trans ?_ (.of_writes (overtakeEntries_writes _) (by decide))
    refine .trans ?_ (isolateBanks_front _)
    refine .trans ?_ (discardLanding_front _)
    exact .trans (.of_writes (isolateCapture_writes s) (by decide)) (.of_writes (purgeResponder_writes _) (by decide))
  · exact hshown.trans (hshown'.trans (by rw [hcapture]))

theorem giveUpWork_requester (s : State) : (giveUpWork s).requester =
    { s.requester with entries := [], published := List.replicate 16 false, unrepairable := List.replicate 16 false } := by
  have h : (isolateBanks (discardLanding (purgeResponder (isolateCapture s)))).requester = s.requester :=
    (isolateBanks_writes _ .requester (by decide)).trans ((discardLanding_writes _ .requester (by decide)).trans
      (isolateCapture_writes s .requester (by decide)))
  unfold giveUpWork
  unfold overtakeEntries
  rw [h]
  rfl

theorem enterIsolated_writes (code : FaultCode) (s : State) :
    OnlyWrites [.station, .port, .bus, .roundTimer] s (enterIsolated code s) := by
  unfold enterIsolated
  refine .followedBy ?_ (isolateBus_writes _) (by decide)
  exact .followedBy ((setStation_writes _ _).widen (by decide)) (post_writes _ _ _ _) (by decide)

theorem enterIsolated_bus (code : FaultCode) (s : State) :
    (enterIsolated code s).bus = { s.bus with hearing := none, driving := none, markClaim := false } := by
  have h : (post .isolated s.settle.frame code.code (s.setStation { s.station with state := .isolated, fault := code })).bus = s.bus :=
    post_writes _ _ _ _ .bus (by decide)
  unfold enterIsolated isolateBus
  rw [State.setRoundTimer_bus, State.setBus_bus, h]

theorem enterIsolated_roundTimer (code : FaultCode) (s : State) :
    (enterIsolated code s).roundTimer = { s.roundTimer with markTimer := none } := by
  have h : (post .isolated s.settle.frame code.code
      (s.setStation { s.station with state := .isolated, fault := code })).roundTimer = s.roundTimer :=
    post_writes _ _ _ _ .roundTimer (by decide)
  unfold enterIsolated isolateBus
  exact congrArg (fun r : RoundTimer => { r with markTimer := none }) h

theorem enterIsolated_station (code : FaultCode) (s : State) :
    (enterIsolated code s).station = { s.station with state := .isolated, fault := code } :=
  post_writes _ _ _ _ .station (by decide)

theorem enterIsolated_port (code : FaultCode) (s : State) :
    (enterIsolated code s).port = (post .isolated s.settle.frame code.code s).port := post_port_congr _ _ _ rfl rfl

theorem isolate_port (code : FaultCode) (s : State) : (isolate code s).port = (post .isolated s.settle.frame code.code s).port :=
  (giveUpWork_writes _ .port (by decide)).trans (enterIsolated_port code s)

theorem isolate_bus (code : FaultCode) (s : State) :
    (isolate code s).bus = { s.bus with hearing := none, driving := none, markClaim := false } :=
  (giveUpWork_writes _ .bus (by decide)).trans (enterIsolated_bus code s)

theorem isolate_station (code : FaultCode) (s : State) :
    (isolate code s).station = { s.station with state := .isolated, fault := code } :=
  (giveUpWork_writes _ .station (by decide)).trans (enterIsolated_station code s)

theorem isolate_roundTimer (code : FaultCode) (s : State) :
    (isolate code s).roundTimer = { s.roundTimer with markTimer := none } :=
  (giveUpWork_writes _ .roundTimer (by decide)).trans (enterIsolated_roundTimer code s)

theorem isolate_capture (code : FaultCode) (s : State) : (isolate code s).capture = { s.capture with
    disposition := if s.capture.state = .capturing then .skipped else s.capture.disposition, state := .dormant, offer := none,
    published := false } := by
  have h : (enterIsolated code s).capture = s.capture := enterIsolated_writes _ _ .capture (by decide)
  rw [isolate_eq, giveUpWork_capture, h]

/-- Entry to ISOLATED leaves what Safety.lean says, block by block. -/
theorem isolate_isolates (code : FaultCode) (s : State) : Isolates s (isolate code s) code := by
  have w := enterIsolated_writes code s
  have hbanks : (enterIsolated code s).banks = s.banks := w .banks (by decide)
  have hrequester : (enterIsolated code s).requester = s.requester := w .requester (by decide)
  obtain ⟨hring, hqueue, hlanding, hengine, hresponder⟩ := giveUpWork_stores (enterIsolated code s)
  obtain ⟨hclear, hswap, hfront, hshown⟩ := giveUpWork_banks (enterIsolated code s)
  have hgone := giveUpWork_requester (enterIsolated code s)
  have hcapture := isolate_capture code s
  have hbus := isolate_bus code s
  have wall := isolate_writes code s
  rw [FrontKept, hbanks] at hfront
  rw [hbanks] at hclear hshown
  rw [hrequester] at hgone
  rw [← isolate_eq] at *
  exact
    { station := isolate_station code s
      bus := by rw [hbus]; exact ⟨rfl, rfl, rfl, rfl, rfl⟩
      timer := isolate_roundTimer code s
      capture := by rw [hcapture]; exact ⟨rfl, rfl, rfl, rfl, rfl⟩
      stores := ⟨hring, hqueue, hlanding⟩
      responder := hresponder
      engine := hengine
      banks := ⟨hclear, hswap, hfront.1, hfront.2, hshown⟩
      requester := by rw [hgone]; exact ⟨rfl, rfl, rfl, rfl⟩
      frozen := ⟨wall .settle (by decide), wall .members (by decide), wall .coverage (by decide), wall .scan (by decide)⟩ }

theorem isolate_heldBack {s : State} (h : s.banks.clear ≠ .clearingBoth) (code : FaultCode) :
    PlacementHeldBack (isolate code s) := by
  have i := isolate_isolates code s
  have hstate : (isolate code s).station.state = .isolated := by rw [i.station]
  obtain ⟨hclear, hswap, -⟩ := i.banks
  refine ⟨fun _ => ⟨i.stores.2.2, i.engine, hswap⟩, fun hl => absurd (hstate.symm.trans hl) (by simp), ?_,
    fun hs => absurd hswap hs, fun hp => absurd (i.engine.symm.trans hp) (by simp)⟩
  rw [hstate]
  exact hclear h

theorem giveUpWork_capacity {s : State} (c : WithinCapacity s) : WithinCapacity (giveUpWork s) := by
  unfold giveUpWork
  refine (overtakeEntries_keeps _).capacity (withinCapacity_of_writes (isolateBanks_writes _) (by decide) ?_)
  refine (discardLanding_keeps _).capacity ((setResponder_reset_keeps _).capacity ?_)
  rw [isolateCapture_eq]
  exact { c with
    ring := Nat.zero_le _, publishQueue := Nat.zero_le _, silence := c.silence, rowCount := c.rowCount,
    rowCountCapturing := fun h => absurd h (by simp), loading := fun h => ⟨(c.loading h).1, (c.loading h).2.1, by simp⟩ }

theorem enterIsolated_capacity (code : FaultCode) {s : State} (c : WithinCapacity s) : WithinCapacity (enterIsolated code s) := by
  have h1 : WithinCapacity (s.setStation { s.station with state := .isolated, fault := code }) :=
    { c with joinCountListening := fun h => absurd h (by simp), loading := fun h => absurd h (by simp) }
  have h2 := (post_keeps .isolated s.settle.frame code.code _).capacity h1
  exact { h2 with }

theorem isolate_capacity (code : FaultCode) {s : State} (c : WithinCapacity s) : WithinCapacity (isolate code s) := by
  rw [isolate_eq]
  exact giveUpWork_capacity (enterIsolated_capacity code c)

theorem isolate_canonical (code : FaultCode) {s : State} (b : BanksCanonical s) : BanksCanonical (isolate code s) := by
  have hentered : BanksCanonical (enterIsolated code s) :=
    banksCanonical_of_writes (enterIsolated_writes code s) (by decide) b
  have hcapture : BanksCanonical (isolateCapture (enterIsolated code s)) :=
    banksCanonical_of_writes (isolateCapture_writes _) (by decide) hentered
  rw [isolate_eq]
  exact stopClear_canonical (s := discardLanding _) (stopPlacement_canonical (s := purgeResponder _) hcapture)

theorem isolate_busInOrder (code : FaultCode) {s : State} (b : BusInOrder s) : BusInOrder (isolate code s) := by
  have i := isolate_isolates code s
  have hstate : (isolate code s).station.state = .isolated := by rw [i.station]
  obtain ⟨hdriving, hhearing, -, hposition, haligned⟩ := i.bus
  obtain ⟨-, hunaligned, -, -, -, hnumbered, -, -⟩ := b
  refine ⟨fun hd => absurd hdriving hd, ?_, fun _ _ => hhearing, fun hm => absurd (hstate.symm.trans hm) (by simp),
    fun _ => hhearing, ?_, fun _ => by rw [i.timer], fun hl => absurd (hstate.symm.trans hl) (by simp)⟩
  · rwa [haligned, hposition]
  · rwa [hposition]

theorem isolate_offerInOrder (code : FaultCode) (s : State) : OfferInOrder (isolate code s) := by
  obtain ⟨hdormant, hoffer, hpublished, -, -⟩ := (isolate_isolates code s).capture
  exact ⟨⟨fun _ => hdormant, fun _ => hoffer⟩, fun hp => absurd (hpublished.symm.trans hp) (by simp),
    fun hc => absurd (hdormant.symm.trans hc) (by simp), fun hw => absurd (hdormant.symm.trans hw) (by simp), fun _ => hdormant⟩

theorem isolate_ringInOrder (code : FaultCode) (s : State) : RingInOrder (isolate code s) := by
  have hring := (isolate_isolates code s).stores.1
  exact ⟨by rw [hring]; exact .nil, by rw [hring]; exact fun e he => absurd he (by simp), fun _ => hring, fun _ => hring⟩

theorem isolate_landingInOrder (code : FaultCode) (s : State) : LandingInOrder (isolate code s) := by
  have i := isolate_isolates code s
  have hstate : (isolate code s).station.state = .isolated := by rw [i.station]
  have hmember : (isolate code s).isMember = false := by rw [isMember_eq_false_iff, hstate]; simp
  have hlanding := i.stores.2.2
  refine ⟨by rw [hlanding]; exact List.nodup_nil, by rw [hlanding]; exact fun e he => absurd he (by simp),
    by rw [hlanding]; exact fun e he => absurd he (by simp), fun hn => absurd hlanding hn, fun hm => ?_⟩
  exact absurd (hmember.symm.trans hm) (by simp)

theorem isolate_repairListInOrder (code : FaultCode) {s : State} (r : RepairListInOrder s.requester) :
    RepairListInOrder (isolate code s).requester := by
  obtain ⟨hentries, -, -, htag⟩ := (isolate_isolates code s).requester
  refine ⟨?_, ?_, ?_, htag ▸ r.lastTag, ?_⟩
  · rw [hentries]; exact List.nodup_nil
  · rw [hentries]; exact List.nodup_nil
  · rw [hentries]; exact Nat.zero_le _
  · rw [hentries]; exact fun e he => absurd he (by simp)

/-- Isolation keeps every invariant of a station whose start-up clear is over; `s` is the state the station came from. -/
theorem isolate_keepsFrom {s u : State} (a : KeepsInvariants s u) (h : PlacementHeldBack s → u.banks.clear ≠ .clearingBoth)
    (code : FaultCode) : KeepsInvariants s (isolate code u) where
  capacity c := isolate_capacity code (a.capacity c)
  canonical b := isolate_canonical code (a.canonical b)
  heldBack p := isolate_heldBack (h p) code
  bus b := isolate_busInOrder code (a.bus b)
  offer _ := isolate_offerInOrder code u
  ring _ _ := isolate_ringInOrder code u
  coverage c := coverageCounts_of_writes (isolate_writes code u) (by decide) (a.coverage c)
  repair r := isolate_repairListInOrder code (a.repair r)
  landing _ := isolate_landingInOrder code u

theorem isolate_front (code : FaultCode) (s : State) : FrontKept s (isolate code s) := by
  obtain ⟨-, -, hfront, hbank, -⟩ := (isolate_isolates code s).banks
  exact ⟨hfront, hbank⟩

/-! ## Joining (R49 to R51) -/

/-- A station of LISTEN becomes a MEMBER; the blocks have still to act on it. -/
theorem becomeMember_keeps {s : State} (hl : s.station.state = .listen) (ha : s.bus.aligned = true) {n : Nat}
    (hn : WithinCapacity s → n ≤ s.image.absenceLimit + 1) :
    KeepsButLanding s (s.setStation { s.station with state := .member, joinCount := n }) := by
  refine .of_writes (setStation_writes _ _) (capacity := fun _ c => { c with
    joinCount := hn c, joinCountListening := fun h => absurd h (by simp), loading := fun h => absurd h (by simp) })
    (heldBack := fun _ p => ?_) (bus := fun _ b => ?_) (offer := fun _ o => ?_) (ring := fun _ _ r => ?_)
  · have hc := p.clearing
    rw [hl] at hc
    have hc : s.banks.clear = .idle := hc
    exact .of_member rfl (by rw [State.setStation_banks, hc]; simp) p.swapping p.placing
  · have hdriving : s.bus.driving = none := by
      by_contra hd
      exact absurd (hl.symm.trans (b.drivesAsMember hd).1) (by simp)
    exact { b with
      drivesAsMember := fun hd => absurd hdriving hd, memberAligned := fun _ => ha,
      deaf := fun h => absurd h (by simp), timerStopped := fun h => absurd h (by simp),
      timerRuns := fun h => absurd h (by simp) }
  · exact { o with outsideMember := fun h => absurd rfl h }
  · have hring : s.ring = [] := r.outsideMember (by rw [isMember_eq_false_iff, hl]; simp)
    exact { r with outsideMember := fun _ => hring }

/-- The entry actions of MEMBER, with the join count at `n`. -/
theorem enterMember_keeps {s : State} (hl : s.station.state = .listen) (ha : s.bus.aligned = true) {n : Nat}
    (hn : WithinCapacity s → n ≤ s.image.absenceLimit + 1) (f : Frame) (k : SettleKind) (d : Byte) :
    KeepsInvariants s (enterMember f k d (s.setStation { s.station with joinCount := n })) := by
  have hstation : ∀ u : State, (post .joined f d u).station = u.station := fun u => post_writes _ _ _ _ .station (by decide)
  have hlanding : ∀ u : State, (post .joined f d u).landing = u.landing := fun u => post_writes _ _ _ _ .landing (by decide)
  have himage : ∀ u : State, (post .joined f d u).image = u.image := fun u => image_of_writes (post_writes _ _ _ _) (by decide)
  unfold enterMember
  refine ⟨.trans ?_ (notice_keeps _ _ _ ?_ fun h => absurd h (by simp)), fun h => notice_landing _ _ _ _ fun hs => ?_⟩
  · refine .trans ?_ (post_keeps _ _ _ _).toKeepsButLanding
    refine (becomeMember_keeps hl ha hn).trans ?_
    exact .of_writes (setSettle_writes _ _) (capacity := fun _ c => { c with openAge := Nat.zero_le _ })
  · rw [hstation]
    rfl
  · rw [hlanding]
    rw [himage] at hs
    exact h.nil_of_not_sink hs

theorem enterMember_front (f : Frame) (k : SettleKind) (d : Byte) (s : State) : FrontKept s (enterMember f k d s) := by
  refine .trans ?_ (notice_front _ _ _ _ _)
  refine .trans ?_ (.of_writes (post_writes _ _ _ _) (by decide))
  exact .trans (.of_writes (setStation_writes s _) (by decide)) (.of_writes (setSettle_writes _ _) (by decide))

theorem countJoin_keeps {s : State} (hl : s.station.state = .listen) (ha : s.bus.aligned = true) :
    KeepsInvariants s (countJoin s) := by
  unfold countJoin
  dsimp only
  split
  next => exact enterMember_keeps hl ha (fun c => Nat.succ_le_succ (c.joinCountListening hl)) _ _ _
  next h =>
    have hn : s.station.joinCount + 1 ≤ s.image.absenceLimit := by
      have : ¬ s.image.absenceLimit + 1 ≤ s.station.joinCount + 1 := h
      omega
    refine .of_writes (setStation_writes _ _) (capacity := fun _ c => { c with
      joinCount := le_trans hn (Nat.le_succ _), joinCountListening := fun _ => hn,
      loading := fun h => absurd (hl.symm.trans h) (by simp) }) (heldBack := fun _ p => { p with }) (bus := fun _ b => { b with })
      (offer := fun _ o => { o with }) (ring := fun _ _ r => { r with }) (landing := fun _ l => { l with })

theorem countJoin_front (s : State) : FrontKept s (countJoin s) := by
  unfold countJoin
  dsimp only
  split
  · exact .trans (.of_writes (setStation_writes s _) (by decide)) (enterMember_front _ _ _ _)
  · exact .of_writes (setStation_writes s _) (by decide)

theorem joinAlone_keeps {s : State} (hl : s.station.state = .listen) : KeepsInvariants s (joinAlone s) := by
  have htimer : KeepsInvariants s (s.setRoundTimer { s.roundTimer with number := 0 }) :=
    .of_writes (setRoundTimer_writes _ _) (bus := fun _ b => { b with })
  have hbus : ∀ u : State, u.station.state = .listen → KeepsInvariants u
      (u.setBus { u.bus with aligned := true, position := .tail, positionHeld := false, hearing := none }) := by
    intro u hu
    refine .of_writes (setBus_writes _ _) (capacity := fun _ c => { c with }) (bus := fun _ b => ?_)
    have hdriving : u.bus.driving = none := by
      by_contra hd
      exact absurd (hu.symm.trans (b.drivesAsMember hd).1) (by simp)
    exact { b with
      drivesAsMember := fun hd => absurd hdriving hd, unaligned := fun _ => rfl, tailSilent := fun _ _ => rfl,
      memberAligned := fun _ => rfl, deaf := fun _ => rfl, numbered := fun k hk => absurd hk (by simp) }
  have hforget : ∀ u : State, (forgetMembers u).station = u.station ∧ (forgetMembers u).bus = u.bus := fun u =>
    ⟨forgetMembers_writes u .station (by decide), forgetMembers_writes u .bus (by decide)⟩
  unfold joinAlone
  dsimp only
  refine .trans ((htimer.trans (hbus _ hl)).trans (forgetMembers_keeps _)) ?_
  generalize hu : forgetMembers _ = u
  have hstation : u.station = s.station := by rw [← hu, (hforget _).1]; rfl
  have haligned : u.bus.aligned = true := by rw [← hu, (hforget _).2]; rfl
  exact enterMember_keeps (n := u.station.joinCount) (hstation ▸ hl) haligned (fun c => c.joinCount) _ _ _

theorem joinAlone_front (s : State) : FrontKept s (joinAlone s) := by
  unfold joinAlone
  refine .trans ?_ (enterMember_front _ _ _ _)
  refine .trans ?_ (.of_writes (forgetMembers_writes _) (by decide))
  exact .trans (.of_writes (setRoundTimer_writes s _) (by decide)) (.of_writes (setBus_writes _ _) (by decide))

end Sys2Proof.Machine
end

section
/-! The configuration checks: what each test of the loader asks of the image, and the code of the first that fails. -/

namespace Sys2Proof.Machine

/-! ## The tests one by one (R40 to R43) -/

theorem inRange_iff {a b n : Nat} : inRange a b n = true ↔ a ≤ n ∧ n ≤ b := by
  simp [inRange]

theorem mem_validStreams {img : Image} {k : Nat} : k ∈ validStreams img ↔ k < 16 ∧ (img.stream k).valid = true := by
  rw [validStreams, List.mem_filter, mem_streamIds]

theorem streamInRange_iff {e : StreamEntry} : streamInRange e = true ↔ (e.valid = true →
    e.publisher ≤ 31 ∧ e.x0 ≤ 4095 ∧ e.y0 ≤ 4095 ∧ (1 ≤ e.width ∧ e.width ≤ 4096) ∧ (1 ≤ e.height ∧ e.height ≤ 4096) ∧
      e.formatCode ≤ 1) := by
  cases hv : e.valid <;> simp [streamInRange, hv, inRange_iff, and_assoc]

theorem all_streams_iff {img : Image} (h : img.streams.length = 16) (p : StreamEntry → Bool) :
    img.streams.all p = true ↔ ∀ k, k < 16 → p (img.stream k) = true := by
  rw [List.all_eq_true]
  constructor
  · intro hall k hk
    rw [Image.stream, List.getD_eq_getElem _ _ (h ▸ hk)]
    exact hall _ (List.getElem_mem _)
  · intro hall e he
    obtain ⟨k, hk, rfl⟩ := List.getElem_of_mem he
    have := hall k (h ▸ hk)
    rwa [Image.stream, List.getD_eq_getElem _ _ hk] at this

theorem rangeHolds_iff {img : Image} (h : img.streams.length = 16) : rangeHolds img = true ↔ FieldsInRange img := by
  simp only [rangeHolds, Bool.and_eq_true, decide_eq_true_eq, inRange_iff, all_streams_iff h, streamInRange_iff,
    List.all_eq_true, Bool.or_eq_true, beq_iff_eq, FieldsInRange, and_assoc]

theorem insideCanvas_iff {r : Rect} : r.insideCanvas = true ↔ r.left + r.width ≤ 4096 ∧ r.top + r.height ≤ 4096 := by
  rw [Rect.insideCanvas, Bool.and_eq_true, decide_eq_true_eq, decide_eq_true_eq]
  rfl

theorem streamsInside_iff {img : Image} : (validStreams img).any (fun k => !(img.stream k).rect.insideCanvas) = false ↔
    StreamsInsideCanvas img := by
  simp only [List.any_eq_false, mem_validStreams, Bool.not_eq_true', Bool.not_eq_false, insideCanvas_iff, StreamsInsideCanvas,
    and_imp, StreamEntry.rect]

/-- A test that does not tell its two streams apart is met by some pair of valid streams, or by none. -/
theorem somePair_iff {img : Image} {test : StreamEntry → StreamEntry → Bool} (hsymm : ∀ a b, test a b = test b a) :
    somePair img test = false ↔ ∀ a b, a < 16 → b < 16 → a ≠ b → (img.stream a).valid = true → (img.stream b).valid = true →
      test (img.stream a) (img.stream b) = false := by
  simp only [somePair, List.any_eq_false, Bool.not_eq_true, mem_validStreams, Bool.and_eq_false_iff,
    decide_eq_false_iff_not]
  constructor
  · intro h a b ha hb hne hva hvb
    rcases Nat.lt_or_gt_of_ne hne with hlt | hlt
    · exact (h a ⟨ha, hva⟩ b ⟨hb, hvb⟩).resolve_left (not_not_intro hlt)
    · exact (hsymm _ _).trans ((h b ⟨hb, hvb⟩ a ⟨ha, hva⟩).resolve_left (not_not_intro hlt))
  · intro h a ha b hb
    by_cases hlt : a < b
    · exact .inr (h a b ha.1 hb.1 hlt.ne ha.2 hb.2)
    · exact .inl hlt

theorem intersects_comm (a b : Rect) : a.intersects b = b.intersects a := by
  rw [Bool.eq_iff_iff]
  simp only [Rect.intersects, Bool.and_eq_true, decide_eq_true_eq]
  omega

/-- Two rectangles with a pixel each intersect exactly when they share one (R1). -/
theorem intersects_iff {a b : StreamEntry} (ha : 1 ≤ a.width ∧ 1 ≤ a.height) (hb : 1 ≤ b.width ∧ 1 ≤ b.height) :
    a.rect.intersects b.rect = true ↔ ∃ x y, a.HasPixel x y ∧ b.HasPixel x y := by
  simp only [Rect.intersects, Bool.and_eq_true, decide_eq_true_eq, StreamEntry.HasPixel]
  simp only [StreamEntry.rect]
  constructor
  · intro h
    exact ⟨max a.x0 b.x0, max a.y0 b.y0, by omega, by omega⟩
  · rintro ⟨x, y, hx, hy⟩
    omega

theorem FieldsInRange.streams {img : Image} (h : FieldsInRange img) {k : Nat} (hk : k < 16) (hv : (img.stream k).valid = true) :
    (img.stream k).publisher ≤ 31 ∧ (img.stream k).x0 ≤ 4095 ∧ (img.stream k).y0 ≤ 4095 ∧
      (1 ≤ (img.stream k).width ∧ (img.stream k).width ≤ 4096) ∧ (1 ≤ (img.stream k).height ∧ (img.stream k).height ≤ 4096) ∧
      (img.stream k).formatCode ≤ 1 := by
  obtain ⟨-, -, -, -, -, -, -, -, -, hstreams, -⟩ := h
  exact hstreams k hk hv

theorem streamsOverlap_iff {img : Image} (h : FieldsInRange img) : streamsOverlap img = false ↔ StreamsDisjoint img := by
  rw [streamsOverlap, somePair_iff fun a b => intersects_comm _ _, StreamsDisjoint]
  have hsized : ∀ k, k < 16 → (img.stream k).valid = true → 1 ≤ (img.stream k).width ∧ 1 ≤ (img.stream k).height := by
    intro k hk hv
    obtain ⟨-, -, -, hwidth, hheight, -⟩ := h.streams hk hv
    exact ⟨hwidth.1, hheight.1⟩
  refine forall_congr' fun a => forall_congr' fun b => forall_congr' fun ha => forall_congr' fun hb => forall_congr' fun _ =>
    forall_congr' fun hva => forall_congr' fun hvb => ?_
  rw [← Bool.not_eq_true, intersects_iff (hsized a ha hva) (hsized b hb hvb)]

theorem publisherConflict_iff {img : Image} : publisherConflict img = false ↔ PublishersAgree img := by
  have hnamed : (validStreams img).any (fun k => (img.stream k).publisher == img.stationNumber) = true ↔
      ∃ k, k < 16 ∧ (img.stream k).valid = true ∧ (img.stream k).publisher = img.stationNumber := by
    simp only [List.any_eq_true, mem_validStreams, beq_iff_eq, and_assoc]
  have hpair : somePair img (fun a b => a.publisher == b.publisher) = false ↔ ∀ a b, a < 16 → b < 16 → a ≠ b →
      (img.stream a).valid = true → (img.stream b).valid = true → (img.stream a).publisher ≠ (img.stream b).publisher := by
    rw [somePair_iff fun a b => Bool.beq_comm]
    simp only [beq_eq_false_iff_ne]
  unfold publisherConflict PublishersAgree
  rw [← hpair, ← hnamed]
  cases somePair img (fun a b => a.publisher == b.publisher) <;>
    cases (validStreams img).any (fun k => (img.stream k).publisher == img.stationNumber) <;> cases img.sourceRole <;> simp

theorem positionMapFails_iff {img : Image} : positionMapFails img = false ↔ MapNamesStreams img := by
  simp only [positionMapFails, Bool.or_eq_false_iff, List.any_eq_false, mem_validStreams, Bool.not_eq_true,
    Bool.and_eq_false_iff, decide_eq_false_iff_not, Bool.not_eq_false', List.contains_iff_mem, MapNamesStreams,
    Decidable.imp_iff_not_or, not_and_or, or_assoc]

theorem planOverflows_iff {img : Image} : planOverflows img = false ↔ PlanFits img := by
  rw [planOverflows, PlanFits, Bool.and_eq_false_iff, List.any_eq_false, ← Bool.not_eq_true, ← Decidable.imp_iff_not_or]
  simp only [decide_eq_true_eq, not_lt]
  rfl

/-! ## The checks in their order (R40) -/

/-- `r` is the code of the first check of the list that does not hold of the image. -/
def IsFirstFault (img : Image) (checks : List (FaultCode × (Image → Prop))) (r : Option FaultCode) : Prop :=
  (∀ before after code holds, checks = before ++ (code, holds) :: after → (∀ c ∈ before, c.2 img) → ¬ holds img →
    r = some code) ∧
  ((∀ c ∈ checks, c.2 img) → r = none)

theorem isFirstFault_nil (img : Image) : IsFirstFault img [] none :=
  ⟨fun before _ _ _ h => by simp at h, fun _ => rfl⟩

theorem isFirstFault_cons {img : Image} {code : FaultCode} {holds : Image → Prop} {rest : List (FaultCode × (Image → Prop))}
    {b : Bool} {r : Option FaultCode} (hb : b = false ↔ holds img) (h : holds img → IsFirstFault img rest r) :
    IsFirstFault img ((code, holds) :: rest) (if b = true then some code else r) := by
  cases b with
  | true =>
    have hnot : ¬ holds img := fun hh => absurd (hb.2 hh) (by simp)
    refine ⟨fun before after code' holds' heq hbefore _ => ?_, fun hall => absurd (hall _ List.mem_cons_self) hnot⟩
    cases before with
    | nil =>
      rw [List.nil_append, List.cons.injEq, Prod.mk.injEq] at heq
      rw [heq.1.1]
      rfl
    | cons c before =>
      rw [List.cons_append, List.cons.injEq] at heq
      exact absurd (hbefore c List.mem_cons_self) (heq.1 ▸ hnot)
  | false =>
    have hh := hb.1 rfl
    obtain ⟨hfirst, hnone⟩ := h hh
    refine ⟨fun before after code' holds' heq hbefore hnot => ?_, fun hall => hnone fun c hc => hall c (List.mem_cons_of_mem _ hc)⟩
    cases before with
    | nil =>
      rw [List.nil_append, List.cons.injEq, Prod.mk.injEq] at heq
      exact absurd (heq.1.2 ▸ hh) hnot
    | cons c before =>
      rw [List.cons_append, List.cons.injEq] at heq
      exact hfirst before after code' holds' heq.2 (fun d hd => hbefore d (List.mem_cons_of_mem _ hd)) hnot

theorem imageFault_isFirstFault {img : Image} (h : img.streams.length = 16) : IsFirstFault img imageChecks (imageFault img) := by
  unfold imageFault imageChecks
  refine isFirstFault_cons (by rw [Bool.not_eq_false', rangeHolds_iff h]) fun hrange => ?_
  refine isFirstFault_cons (by rw [Bool.not_eq_false', insideCanvas_iff]; rfl) fun _ => ?_
  refine isFirstFault_cons streamsInside_iff fun _ => ?_
  refine isFirstFault_cons (streamsOverlap_iff hrange) fun _ => ?_
  refine isFirstFault_cons publisherConflict_iff fun _ => ?_
  refine isFirstFault_cons positionMapFails_iff fun _ => ?_
  exact isFirstFault_cons planOverflows_iff fun _ => isFirstFault_nil _

/-- A checked list with no fault: every check holds. -/
theorem IsFirstFault.all_hold {img : Image} {checks : List (FaultCode × (Image → Prop))} (h : IsFirstFault img checks none) :
    ∀ c ∈ checks, c.2 img := by
  obtain ⟨hfirst, -⟩ := h
  have key : ∀ before after, checks = before ++ after → (∀ c ∈ before, c.2 img) → ∀ c ∈ after, c.2 img := by
    intro before after
    induction after generalizing before with
    | nil => exact fun _ _ c hc => absurd hc (by simp)
    | cons d after ih =>
      intro heq hbefore c hc
      have hd : d.2 img := by
        by_contra hn
        exact absurd (hfirst before after d.1 d.2 heq hbefore hn) (by simp)
      rcases List.mem_cons.1 hc with rfl | hc
      · exact hd
      · refine ih (before ++ [d]) (by rw [heq, List.append_assoc, List.singleton_append]) (fun x hx => ?_) c hc
        rcases List.mem_append.1 hx with hx | hx
        · exact hbefore x hx
        · exact List.mem_singleton.1 hx ▸ hd
  exact key [] checks rfl (by simp)

theorem parseImage_streams_length (bs : List Byte) : (parseImage bs).streams.length = 16 := rfl

theorem readFault_of_image {bs : List Byte} (h : readFault bs ≠ some .imageCheck) : readFault bs = imageFault (parseImage bs) := by
  unfold readFault at h ⊢
  split at h
  · exact absurd rfl h
  next hfails => rw [if_neg hfails]

theorem imageFault_ne_imageCheck (img : Image) : imageFault img ≠ some .imageCheck := by
  unfold imageFault
  repeat' split
  all_goals simp

theorem readFault_imageCheck_iff (bs : List Byte) : readFault bs = some .imageCheck ↔ imageCheckFails bs = true := by
  unfold readFault
  split
  next h => simp [h]
  next h => simp [h, imageFault_ne_imageCheck]

/-- An image that is accepted passes the seven checks. -/
theorem checks_of_accepted {bs : List Byte} (h : readFault bs = none) : ∀ c ∈ imageChecks, c.2 (parseImage bs) := by
  have hfault := readFault_of_image (bs := bs) (by rw [h]; simp)
  rw [h] at hfault
  exact IsFirstFault.all_hold (hfault ▸ imageFault_isFirstFault (parseImage_streams_length bs))

theorem accepted_sound {bs : List Byte} (h : readFault bs = none) :
    FieldsInRange (parseImage bs) ∧ TileInsideCanvas (parseImage bs) ∧ StreamsInsideCanvas (parseImage bs) ∧
      StreamsDisjoint (parseImage bs) ∧ PublishersAgree (parseImage bs) ∧ MapNamesStreams (parseImage bs) ∧
      PlanFits (parseImage bs) := by
  simpa [imageChecks] using checks_of_accepted h

/-! ## The own stream (R42) -/

theorem ownStream_isSome {img : Image} (h : PublishersAgree img) (hs : img.sourceRole = true) : ∃ k, k < 16 ∧
    img.ownStream = some k ∧ (img.stream k).valid = true ∧ (img.stream k).publisher = img.stationNumber := by
  obtain ⟨k, hk, hv, hp⟩ := h.2.1 hs
  have hfound : ∃ a, streamIds.find? (fun k => (img.stream k).valid && (img.stream k).publisher == img.stationNumber) = some a := by
    rw [← Option.isSome_iff_exists, List.find?_isSome]
    exact ⟨k, mem_streamIds.2 hk, by simp [hv, hp]⟩
  obtain ⟨a, ha⟩ := hfound
  have htest := List.find?_some ha
  rw [Bool.and_eq_true, beq_iff_eq] at htest
  refine ⟨a, mem_streamIds.1 (List.mem_of_find?_eq_some ha), ?_, htest⟩
  rw [Image.ownStream, if_pos hs, ha]

/-! ## IMAGE CHECK (R39) -/

theorem imageSlice_eq {bs : List Byte} {i n : Nat} (h : i + n ≤ bs.length) : imageSlice bs i n = (bs.drop i).take n := by
  refine List.ext_getElem ?_ fun k hk _ => ?_
  · simp only [imageSlice, List.length_map, List.length_range, List.length_take, List.length_drop]
    omega
  · simp only [imageSlice, List.length_map, List.length_range] at hk
    simp only [imageSlice, List.getElem_map, List.getElem_range, List.getElem_take, List.getElem_drop]
    exact List.getD_eq_getElem _ _ (by omega)

theorem imageCheckFails_iff {bs : List Byte} (h : bs.length = 256) : imageCheckFails bs = true ↔
    bs = List.replicate 256 0xFF ∨ bs.drop 252 ≠ toQuad (checkWord (bs.take 252)) ∨ bs.head? ≠ some 0x31 := by
  have hsilent : memorySilent bs = true ↔ bs = List.replicate 256 0xFF := by
    rw [memorySilent, Config.imageSize, imageSlice_eq (by omega), List.drop_zero, List.take_of_length_le (by omega),
      List.eq_replicate_iff, List.all_eq_true]
    simp [h]
  have hagrees : imageCheckAgrees bs = true ↔ bs.drop 252 = toQuad (checkWord (bs.take 252)) := by
    rw [imageCheckAgrees, imageSlice_eq (by omega), imageSlice_eq (by omega), List.drop_zero,
      List.take_of_length_le (by rw [List.length_drop]; omega), beq_iff_eq]
  have hformat : (imageByte bs 0 != 0x31) = true ↔ bs.head? ≠ some 0x31 := by
    cases bs with
    | nil => simp at h
    | cons b bs =>
      rw [bne_iff_ne, not_iff_not, imageByte, List.getD_cons_zero, List.head?_cons, Option.some.injEq, ← BitVec.toNat_inj]
      rfl
  rw [imageCheckFails, Bool.or_eq_true, Bool.or_eq_true, hsilent, Bool.not_eq_true', ← Bool.not_eq_true, hagrees, hformat,
    or_assoc]

/-- Settles O18: the tests of R39 one by one, and the seven checks by the first of the list that fails. -/
theorem imageCheckFindsNoImage : Obligations.ImageCheckFindsNoImage := by
  refine ⟨fun bs h => (readFault_imageCheck_iff bs).trans (imageCheckFails_iff h), fun bs h => ?_⟩
  rw [readFault_of_image h]
  exact imageFault_isFirstFault (parseImage_streams_length bs)

/-! ## Accepted images -/

theorem mapEntry_eq_some {img : Image} {j k : Nat} (h : img.mapEntry j = some k) : k ≤ 15 ∧ k ∈ img.positionMap := by
  unfold Image.mapEntry at h
  dsimp only at h
  split at h
  next hle =>
    rw [Option.some.injEq] at h
    rw [h] at hle
    refine ⟨hle, ?_⟩
    rcases Nat.lt_or_ge j img.positionMap.length with hj | hj
    · rw [List.getD_eq_getElem _ _ hj] at h
      exact h ▸ List.getElem_mem hj
    · rw [List.getD_eq_default _ _ hj] at h
      omega
  next => exact absurd h (by simp)

theorem mapEntry_of_mem {img : Image} {k : Nat} (hk : k < 16) (h : k ∈ img.positionMap) :
    ∃ j, j < img.positionMap.length ∧ img.mapEntry j = some k := by
  obtain ⟨j, hj, hjk⟩ := List.getElem_of_mem h
  refine ⟨j, hj, ?_⟩
  rw [Image.mapEntry, List.getD_eq_getElem _ _ hj, hjk, if_pos (by omega)]

theorem parseImage_positionMap_length (bs : List Byte) : (parseImage bs).positionMap.length = 96 := by
  simp [parseImage]

/-- Settles O19: the seven checks hold of an accepted image, and each gives its clause. -/
theorem acceptedImagesAreSound : Obligations.AcceptedImagesAreSound := by
  rintro bs h img rfl
  obtain ⟨hrange, htile, hinside, hdisjoint, hpublishers, hmap, hplan⟩ := accepted_sound h
  have hlength := parseImage_positionMap_length bs
  refine ⟨?_, htile, fun k hk hv => ?_, fun a b ha hb hne hva hvb => ?_, ownStream_isSome hpublishers, fun j k hj => ?_, hplan⟩
  · obtain ⟨hstation, hperiod, habsence, hdeadline, hsilence, hwidth, hheight, htileAt, hscan, -, hbytes⟩ := hrange
    refine ⟨hstation, hperiod.1, hperiod.2, habsence.1, habsence.2, hdeadline.1, hdeadline.2, hsilence.1, hsilence.2, hwidth.1,
      hwidth.2, hheight.1, hheight.2, htileAt.1, htileAt.2, hscan.1, hscan.2, fun j hj => ?_⟩
    rw [List.getD_eq_getElem _ _ (by omega)]
    exact hbytes _ (List.getElem_mem _)
  · obtain ⟨hpublisher, hx, hy, hwidth, hheight, hformat⟩ := hrange.streams hk hv
    obtain ⟨j, hj, hjk⟩ := mapEntry_of_mem hk (hmap.2 k hk hv)
    exact ⟨(hinside k hk hv).1, (hinside k hk hv).2, hpublisher, hformat, hx, hy, hwidth.1, hwidth.2, hheight.1, hheight.2,
      ⟨j, hlength ▸ hj, hjk⟩, fun hp => hpublishers.2.2 ⟨k, hk, hv, hp⟩⟩
  · refine ⟨hpublishers.1 a b ha hb hne hva hvb, ?_⟩
    rintro ⟨x, y, hax, hax', hay, hay', hbx, hbx', hby, hby'⟩
    exact hdisjoint a b ha hb hne hva hvb ⟨x, y, ⟨hax, hax', hay, hay'⟩, hbx, hbx', hby, hby'⟩
  · obtain ⟨hk, hmem⟩ := mapEntry_eq_some hj
    exact hmap.1 k hmem hk

end Sys2Proof.Machine
end

section
/-! Loading: reset, the end of the read, and the end of the start-up clear keep the invariants. -/

namespace Sys2Proof.Machine

/-! ## Reset (R46) -/

theorem afterReset_capacity (seq : Nat) (asserted : Bool) (l : List Instr) : WithinCapacity (.afterReset seq asserted l) where
  ring := Nat.zero_le _
  publishQueue := Nat.zero_le _
  landing := Nat.zero_le _
  repairList := Nat.zero_le _
  repairQueue := Nat.zero_le _
  replies := Nat.zero_le _
  events := Nat.zero_le _
  dropped := Nat.zero_le _
  counters := ⟨rfl, fun n hn => by rw [List.eq_of_mem_replicate hn]; exact Nat.zero_le _⟩
  openAge := Nat.zero_le _
  silence := Nat.zero_le _
  consecutiveFaults := Nat.zero_le _
  collisions := Nat.zero_le _
  silentExpiries := Nat.zero_le _
  members := ⟨rfl, fun e he => by rw [List.eq_of_mem_replicate he]; exact Nat.zero_le _⟩
  piecesServed r hr := absurd hr (by simp [State.afterReset, Responder.reset])
  piecesAnswered m hm := absurd hm (by simp [State.afterReset, Responder.reset])
  joinCount := Nat.zero_le _
  joinCountListening _ := Nat.zero_le _
  streamHeight h := absurd h (by simp [State.afterReset, State.image, Loader.reset, Image.blank])
  rowCount := Nat.zero_le _
  rowCountCapturing h := absurd h (by simp [State.afterReset, Capture.reset])
  loading _ := ⟨rfl, rfl, by simp [State.afterReset, Capture.reset]⟩

theorem afterReset_canonical (seq : Nat) (asserted : Bool) (l : List Instr) : BanksCanonical (.afterReset seq asserted l) :=
  banks_reset_wf seq

theorem afterReset_heldBack (seq : Nat) (asserted : Bool) (l : List Instr) : PlacementHeldBack (.afterReset seq asserted l) where
  outsideMember _ := ⟨rfl, rfl, rfl⟩
  reading _ _ := rfl
  clearing := by simp [State.afterReset, Station.reset, BankControl.reset]
  swapping h := absurd rfl h
  placing h := absurd h (by simp [State.afterReset])

theorem afterReset_bus (seq : Nat) (asserted : Bool) (l : List Instr) : BusInOrder (.afterReset seq asserted l) where
  drivesAsMember h := absurd rfl h
  unaligned _ := rfl
  tailSilent _ _ := rfl
  memberAligned h := absurd h (by simp [State.afterReset, Station.reset])
  deaf _ := rfl
  numbered k h := absurd h (by simp [State.afterReset, Bus.reset])
  timerStopped _ := rfl
  timerRuns h := absurd h (by simp [State.afterReset, Station.reset])

theorem afterReset_offer (seq : Nat) (asserted : Bool) (l : List Instr) : OfferInOrder (.afterReset seq asserted l) where
  dormant := ⟨fun _ => rfl, fun _ => rfl⟩
  published h := absurd h (by simp [State.afterReset, Capture.reset])
  capturing h := absurd h (by simp [State.afterReset, Capture.reset])
  waiting h := absurd h (by simp [State.afterReset, Capture.reset])
  outsideMember _ := rfl

theorem afterReset_coverage (seq : Nat) (asserted : Bool) (l : List Instr) :
    CoverageCounts (State.afterReset seq asserted l).coverage where
  sized := ⟨rfl, rfl⟩
  outstanding k hk := by
    exact List.getD_replicate (x := 0) hk
  totals k hk := by
    exact List.getD_replicate (x := 0) hk
  distinct r hr := absurd hr (by simp [State.afterReset, Coverage.nothing])
  streams r hr := absurd hr (by simp [State.afterReset, Coverage.nothing])

theorem afterReset_repair (seq : Nat) (asserted : Bool) (l : List Instr) :
    RepairListInOrder (State.afterReset seq asserted l).requester where
  tags := List.nodup_nil
  streams := List.nodup_nil
  size := Nat.zero_le _
  lastTag := by simp [State.afterReset, Requester.reset]
  entry e he := absurd he (by simp [State.afterReset, Requester.reset])

theorem afterReset_landing (seq : Nat) (asserted : Bool) (l : List Instr) : LandingInOrder (.afterReset seq asserted l) where
  pieces := List.nodup_nil
  claimed p hp := absurd hp (by simp [State.afterReset])
  frame p hp := absurd hp (by simp [State.afterReset])
  sink h := absurd rfl h
  openFor h := absurd h (by simp [State.isMember, State.afterReset, Station.reset])

theorem afterReset_ring (seq : Nat) (asserted : Bool) (l : List Instr) : RingInOrder (.afterReset seq asserted l) where
  order := .nil
  produced e he := absurd he (by simp [State.afterReset])
  outsideMember _ := rfl
  waiting _ := rfl

theorem applyReset_keeps (s : State) : KeepsInvariants s (applyReset s) where
  capacity _ := afterReset_capacity _ _ _
  canonical _ := afterReset_canonical _ _ _
  heldBack _ := afterReset_heldBack _ _ _
  bus _ := afterReset_bus _ _ _
  offer _ := afterReset_offer _ _ _
  ring _ _ := afterReset_ring _ _ _
  coverage _ := afterReset_coverage _ _ _
  repair _ := afterReset_repair _ _ _
  landing _ := afterReset_landing _ _ _

/-- Settles O52: the state right after reset is one that RESET leaves. -/
theorem invariantsHoldAtReset : Obligations.InvariantsHoldAtReset :=
  ⟨afterReset_capacity _ _ _, afterReset_canonical _ _ _, afterReset_heldBack _ _ _, afterReset_bus _ _ _,
    afterReset_offer _ _ _, afterReset_coverage _ _ _, afterReset_repair _ _ _, afterReset_landing _ _ _, afterReset_ring _ _ _⟩

/-! ## Entry to LISTEN (R48) -/

/-- The landing queue of a station that is no MEMBER. -/
theorem landingInOrder_of_nil {s : State} (hm : s.isMember = false) (h : s.landing = []) : LandingInOrder s where
  pieces := by rw [h]; exact List.nodup_nil
  claimed := by rw [h]; exact fun p hp => absurd hp (by simp)
  frame := by rw [h]; exact fun p hp => absurd hp (by simp)
  sink hn := absurd h hn
  openFor hmember := absurd (hm.symm.trans hmember) (by simp)

theorem LandingInOrder.nil_outside {s : State} (l : LandingInOrder s) (hm : s.isMember = false) : s.landing = [] := by
  by_contra hn
  exact absurd (hm.symm.trans (l.sink hn).1) (by simp)

theorem not_member_of_loading {s : State} (h : s.station.state = .loading) : s.station.state ≠ .member := by rw [h]; simp

theorem enterListen_busInOrder (s : State) : BusInOrder (enterListen s) where
  drivesAsMember h := absurd rfl h
  unaligned _ := rfl
  tailSilent h := absurd h (by simp [enterListen, restartMarkTimer, State.setMember, Bus.reset])
  memberAligned h := absurd h (by simp [enterListen, restartMarkTimer, State.setMember])
  deaf _ := rfl
  numbered k h := absurd h (by simp [enterListen, restartMarkTimer, State.setMember, Bus.reset])
  timerStopped h := absurd h (by simp [enterListen, restartMarkTimer, State.setMember])
  timerRuns _ := by simp [enterListen, restartMarkTimer]

theorem enterListen_capacity {s : State} (c : WithinCapacity s) : WithinCapacity (enterListen s) :=
  { c with
    consecutiveFaults := Nat.zero_le _, collisions := Nat.zero_le _, silentExpiries := Nat.zero_le _,
    members := by
      refine ⟨List.length_set.trans c.members.1, fun e he => ?_⟩
      rcases List.mem_or_eq_of_mem_set he with he | rfl
      · exact c.members.2 e he
      · exact Nat.zero_le _
    joinCount := Nat.zero_le _, joinCountListening := fun _ => Nat.zero_le _,
    loading := fun h => absurd h (by simp [enterListen, restartMarkTimer, State.setMember]) }

theorem enterListen_heldBack {s : State} (hl : s.station.state = .loading) (hc : s.banks.clear = .idle)
    (p : PlacementHeldBack s) : PlacementHeldBack (enterListen s) where
  outsideMember _ := p.outsideMember (not_member_of_loading hl)
  reading h := absurd h (by simp [enterListen, restartMarkTimer, State.setMember])
  clearing := hc
  swapping := p.swapping
  placing := p.placing

/-- A station enters LISTEN from LOADING; `s` is the state it came from. -/
theorem enterListen_keepsFrom {s u : State} (a : KeepsInvariants s u) (hl : u.station.state = .loading)
    (hc : PlacementHeldBack s → u.banks.clear = .idle) : KeepsInvariants s (enterListen u) where
  capacity c := enterListen_capacity (a.capacity c)
  canonical b := banksCanonical_of_writes (enterListen_writes u) (by decide) (a.canonical b)
  heldBack p := enterListen_heldBack hl (hc p) (a.heldBack p)
  bus _ := enterListen_busInOrder u
  offer o := { a.offer o with outsideMember := fun _ => (a.offer o).outsideMember (not_member_of_loading hl) }
  ring o r := { a.ring o r with
    outsideMember := fun _ => (a.ring o r).outsideMember (isMember_eq_false_iff.2 (not_member_of_loading hl)) }
  coverage c := coverageCounts_of_writes (enterListen_writes u) (by decide) (a.coverage c)
  repair r := repairListInOrder_of_writes (enterListen_writes u) (by decide) (a.repair r)
  landing l := landingInOrder_of_nil (by simp [State.isMember, enterListen, restartMarkTimer, State.setMember])
    ((a.landing l).nil_outside (isMember_eq_false_iff.2 (not_member_of_loading hl)))

/-! ## The end of the read (R39, R45, R47) -/

theorem acceptedOf_height {bs : List Byte} (h : readFault bs = none) {s : State}
    (hs : s.loader.accepted = some (acceptedOf bs)) (hsource : s.image.sourceRole = true) : 1 ≤ (ownEntry s).height := by
  have himage : s.image = parseImage bs := by simp only [State.image, hs]; rfl
  obtain ⟨hrange, -, -, -, hpublishers, -, -⟩ := accepted_sound h
  rw [himage] at hsource
  obtain ⟨k, hk, hown, hv, -⟩ := ownStream_isSome hpublishers hsource
  obtain ⟨-, -, -, -, hheight, -⟩ := hrange.streams hk hv
  rw [ownEntry, himage, hown]
  exact hheight.1

/-- A station in LOADING takes an image: nothing has been counted or captured by an older one. -/
theorem setLoader_accepted_keeps {s : State} (hl : s.station.state = .loading) {bs : List Byte} (h : readFault bs = none) :
    KeepsInvariants s (s.setLoader { reading := false, accepted := some (acceptedOf bs) }) := by
  have hm := not_member_of_loading hl
  refine .of_writes (setLoader_writes _ _) (capacity := fun _ c => ?_) (heldBack := fun _ p => ?_) (ring := fun _ _ r => ?_)
    (landing := fun _ l => ?_)
  · obtain ⟨hjoin, hrows, hcapturing⟩ := c.loading hl
    exact { c with
      joinCount := by rw [State.setLoader_station, hjoin]; exact Nat.zero_le _,
      joinCountListening := fun hlisten => absurd (hl.symm.trans hlisten) (by simp),
      streamHeight := acceptedOf_height h rfl,
      rowCount := by rw [State.setLoader_capture, hrows]; exact Nat.zero_le _,
      rowCountCapturing := fun hc => absurd hc hcapturing }
  · exact { p with reading := fun _ hr => absurd hr (by simp) }
  · have hring := r.outsideMember (isMember_eq_false_iff.2 hm)
    have hproduced : ∀ e ∈ s.ring, e.row < (ownEntry (s.setLoader { reading := false, accepted := some (acceptedOf bs) })).y0 +
        s.capture.rowCount := by rw [hring]; exact fun e he => absurd he (by simp)
    exact { r with produced := hproduced, outsideMember := fun _ => hring }
  · exact landingInOrder_of_nil (isMember_eq_false_iff.2 hm) (l.nil_outside (isMember_eq_false_iff.2 hm))

theorem acceptImage_of_sink {bs : List Byte} (h : (parseImage bs).sinkRole = true) (s : State) : acceptImage bs s =
    ((s.setLoader { reading := false, accepted := some (acceptedOf bs) }).setCoverage
      (Coverage.ofPlan (parseImage bs).coveragePlan)).setBanks { s.banks with clear := .clearingBoth } := by
  have hplan : (acceptedOf bs).plan = (parseImage bs).coveragePlan := if_pos h
  have hrole : (acceptedOf bs).image.sinkRole = true := h
  unfold acceptImage
  dsimp only
  rw [if_pos hrole, hplan]
  rfl

theorem acceptImage_of_not_sink {bs : List Byte} (h : (parseImage bs).sinkRole = false) (s : State) : acceptImage bs s =
    enterListen (s.setLoader { reading := false, accepted := some (acceptedOf bs) }) :=
  if_neg (fun hs => absurd (h.symm.trans hs) (by simp))

/-- The start-up clear begins: in LOADING, with the read over. -/
theorem startUpClear_keeps {u : State} (hl : u.station.state = .loading) (hr : u.loader.reading = false) (img : Image) :
    KeepsInvariants u ((u.setCoverage (Coverage.ofPlan img.coveragePlan)).setBanks { u.banks with clear := .clearingBoth }) := by
  have hm := not_member_of_loading hl
  refine .of_writes (fs := [.coverage, .banks]) ?_ (canonical := fun _ b => b) (heldBack := fun _ p => ?_)
    (coverage := fun _ _ => ofPlan_counts img) (landing := fun _ l => ?_)
  · exact .followedBy ((setCoverage_writes _ _).widen (by decide)) (setBanks_writes _ _) (by decide)
  · obtain ⟨hlanding, hidle, hswap⟩ := p.outsideMember hm
    refine ⟨fun _ => ⟨hlanding, hidle, hswap⟩, fun _ h => absurd (hr.symm.trans h) (by simp), ?_, fun h => absurd hswap h,
      fun h => absurd (hidle.symm.trans h) (by simp)⟩
    rw [State.setBanks_station, State.setCoverage_station, hl]
    simp
  · exact landingInOrder_of_nil (isMember_eq_false_iff.2 hm) (l.nil_outside (isMember_eq_false_iff.2 hm))

theorem acceptImage_keeps {s : State} (hl : s.station.state = .loading) (hr : s.loader.reading = true) {bs : List Byte}
    (h : readFault bs = none) : KeepsInvariants s (acceptImage bs s) := by
  have hloader := setLoader_accepted_keeps hl h
  cases hsink : (parseImage bs).sinkRole with
  | true =>
    rw [acceptImage_of_sink hsink]
    exact hloader.trans (startUpClear_keeps (u := s.setLoader { reading := false, accepted := some (acceptedOf bs) }) hl rfl _)
  | false =>
    rw [acceptImage_of_not_sink hsink]
    exact enterListen_keepsFrom hloader hl fun p => p.reading hl hr

/-- The read is over without an image. -/
theorem setLoader_over_keeps (s : State) : KeepsInvariants s (s.setLoader { s.loader with reading := false }) :=
  .of_writes (setLoader_writes _ _) (capacity := fun _ c => { c with })
    (heldBack := fun _ p => { p with reading := fun _ hr => absurd hr (by simp) }) (ring := fun _ _ r => { r with })
    (landing := fun _ l => { l with })

theorem endRead_keeps {s : State} (hl : s.station.state = .loading) (hr : s.loader.reading = true) (bs : List Byte) :
    KeepsInvariants s (endRead bs s) := by
  unfold endRead
  split
  next code _ =>
    refine isolate_keepsFrom (setLoader_over_keeps s) (fun p => ?_) code
    rw [State.setLoader_banks, p.reading hl hr]
    simp
  next h => exact acceptImage_keeps hl hr h

/-! ## The end of the start-up clear (R121) -/

/-- The banks the start-up clear leaves. -/
def clearedBanks (s : State) : State :=
  s.setBanks { s.banks with
    bank0 := Bank.cleared s.image.background, bank1 := Bank.cleared s.image.background, front := .bank0, clear := .idle,
    shown := none }

theorem endStartUpClear_eq (s : State) : endStartUpClear s =
    (scanStart (clearedBanks s)).setScan { (scanStart (clearedBanks s)).scan with poblHigh := false } := rfl

theorem clearedBanks_keeps (s : State) : KeepsInvariants s (clearedBanks s) := by
  refine keeps_of_banks ((setBanks_writes _ _).widen (by decide)) (fun _ => ⟨Bank.cleared_wf _, Bank.cleared_wf _⟩) fun p => ?_
  refine ⟨p.outsideMember, fun _ _ => rfl, ?_, fun h => ⟨rfl, (p.swapping h).2⟩, fun h => ⟨rfl, (p.placing h).2⟩⟩
  rw [clearedBanks, State.setBanks_station]
  cases s.station.state <;> simp

theorem endStartUpClear_keeps (s : State) : KeepsInvariants s (endStartUpClear s) := by
  rw [endStartUpClear_eq]
  exact ((clearedBanks_keeps s).trans (scanStart_keeps _)).trans (.of_writes (setScan_writes _ _))

/-- A station in LOADING has no swap pending, so its first scan start only starts the scan. -/
theorem endStartUpClear_of_none {s : State} (h : s.banks.swapPending = none) : endStartUpClear s =
    (clearedBanks s).setScan { timer := some s.image.scanPeriod, position := .row 0, poblHigh := false } := by
  have hswap : completeSwap (clearedBanks s) = clearedBanks s := completeSwap_of_none h
  rw [endStartUpClear_eq, scanStart, hswap]
  rfl

theorem startUpClearComplete_keeps {s : State} (hl : s.station.state = .loading) :
    KeepsInvariants s (enterListen (endStartUpClear s)) := by
  have hstation : (endStartUpClear s).station = s.station := endStartUpClear_writes s .station (by decide)
  refine enterListen_keepsFrom (endStartUpClear_keeps s) (hstation ▸ hl) fun p => ?_
  rw [endStartUpClear_of_none (p.outsideMember (not_member_of_loading hl)).2.2]
  rfl

end Sys2Proof.Machine
end

section
/-! The bus interface: burst starts, sending, readback and the position counter keep the invariants. -/

namespace Sys2Proof.Machine

/-! ## What a step does, packaged: the invariants kept and the front bank not written -/

/-- From `s` to `t` every invariant is kept and the front bank stays as it is. -/
structure Works (s t : State) : Prop extends KeepsInvariants s t where
  front : FrontKept s t

namespace Works

variable {s t u : State}

theorem refl : Works s s := ⟨.refl, .refl⟩

theorem trans (a : Works s t) (b : Works t u) : Works s u :=
  ⟨a.toKeepsInvariants.trans b.toKeepsInvariants, a.front.trans b.front⟩

/-- An operation that keeps the invariants and does not write the banks. -/
theorem of_keeps {fs : List Field} (a : KeepsInvariants s t) (w : OnlyWrites fs s t) (h : Field.banks ∉ fs := by decide) :
    Works s t := ⟨a, .of_writes w h⟩

theorem foldl {α : Type} (g : State → α → State) (h : ∀ s a, Works s (g s a)) (l : List α) : ∀ s, Works s (l.foldl g s) := by
  induction l with
  | nil => exact fun _ => .refl
  | cons a l ih => exact fun s => (h s a).trans (ih _)

end Works

/-! ## The station on the bus -/

theorem onTheBus_iff {s : State} : s.onTheBus = true ↔
    s.station.state = .member ∨ (s.station.state = .listen ∧ s.bus.aligned = true) := by
  rw [State.onTheBus, Bool.or_eq_true, Bool.and_eq_true, isMember_iff, isListen_iff]

theorem onTheBus_of_member {s : State} (h : s.isMember = true) : s.onTheBus = true := onTheBus_iff.2 (.inl (isMember_iff.1 h))

theorem onTheBus_of_same {s t : State} (hstation : t.station = s.station) (haligned : t.bus.aligned = s.bus.aligned) :
    t.onTheBus = s.onTheBus := by
  simp only [State.onTheBus, State.isMember, State.isListen, hstation, haligned]

theorem onTheBus_of_writes {fs : List Field} {s t : State} (w : OnlyWrites fs s t) (h : ∀ f ∈ fs, f ∉ [Field.station, .bus]) :
    t.onTheBus = s.onTheBus := by
  have hstation : t.station = s.station := w .station fun hf => h _ hf (by decide)
  have hbus : t.bus = s.bus := w .bus fun hf => h _ hf (by decide)
  exact onTheBus_of_same hstation (by rw [hbus])

theorem not_deaf_of_onTheBus {s : State} (h : s.onTheBus = true) :
    ¬ (s.station.state = .loading ∨ s.station.state = .isolated) := by
  rcases onTheBus_iff.1 h with h | ⟨h, -⟩ <;> rw [h] <;> simp

theorem BusInOrder.aligned {s : State} (b : BusInOrder s) (h : s.onTheBus = true) : s.bus.aligned = true := by
  rcases onTheBus_iff.1 h with h | ⟨-, h⟩
  · exact b.memberAligned h
  · exact h

theorem BusInOrder.silent {s : State} (b : BusInOrder s) (h : s.station.state ≠ .member) : s.bus.driving = none := by
  by_contra hd
  exact h (b.drivesAsMember hd).1

/-- On the bus the start-up clear is over (R121). -/
theorem PlacementHeldBack.clear_of_onTheBus {s : State} (p : PlacementHeldBack s) (h : s.onTheBus = true) :
    s.banks.clear ≠ .clearingBoth := by
  have hc := p.clearing
  rcases onTheBus_iff.1 h with h | ⟨h, -⟩
  · exact p.clear_of_member h
  · rw [h] at hc
    have hidle : s.banks.clear = .idle := hc
    rw [hidle]
    simp

/-! ## A rule for the bus interface -/

/-- The bounds of the two fault counts (R34, R35). -/
def Bus.Fits (b : Bus) : Prop := b.consecutiveFaults ≤ 8 ∧ b.collisions ≤ 2

theorem keeps_of_bus {s : State} {x : Bus} (hfits : s.bus.Fits → x.Fits) (h : BusInOrder s → BusInOrder (s.setBus x)) :
    KeepsInvariants s (s.setBus x) := by
  refine .of_writes (setBus_writes _ _) (capacity := fun _ c => ?_) (bus := fun _ => h)
  obtain ⟨hfaults, hcollisions⟩ := hfits ⟨c.consecutiveFaults, c.collisions⟩
  exact { c with consecutiveFaults := hfaults, collisions := hcollisions }

theorem setBus_works {s : State} {x : Bus} (hfits : s.bus.Fits → x.Fits) (h : BusInOrder s → BusInOrder (s.setBus x)) :
    Works s (s.setBus x) := .of_keeps (keeps_of_bus hfits h) (setBus_writes _ _)

/-- The burst is over. -/
theorem afterBurst_works (s : State) : Works s (afterBurst s) :=
  setBus_works (fun h => h) fun b => { b with
    drivesAsMember := fun h => absurd rfl h, tailSilent := fun _ _ => rfl, deaf := fun _ => rfl }

theorem dropHearing_works {s : State} (h : s.station.state ≠ .member) : Works s (s.setBus { s.bus with hearing := none }) :=
  setBus_works (fun h => h) fun b => { b with
    drivesAsMember := fun hd => absurd (b.silent h) hd, tailSilent := fun _ _ => rfl, deaf := fun _ => rfl }

/-! ## Burst starts (R16, R17, R21) -/

/-- On the bus a burst is heard outside the tail. -/
theorem BusInOrder.hears {s : State} (b : BusInOrder s) (hon : s.onTheBus = true) {x : Bus}
    (haligned : x.aligned = s.bus.aligned) (hposition : x.position ≠ .tail) (hhearing : x.hearing ≠ none)
    (hdriving : x.driving ≠ none → s.station.state = .member) (hnumbered : ∀ k, x.position = .numbered k → 1 ≤ k ∧ k ≤ 160) :
    BusInOrder (s.setBus x) where
  drivesAsMember hd := ⟨hdriving hd, hhearing⟩
  unaligned hu := absurd ((b.aligned hon).symm.trans (haligned.symm.trans hu)) (by simp)
  tailSilent _ ht := absurd ht hposition
  memberAligned _ := haligned.trans (b.aligned hon)
  deaf (hs : s.station.state = _ ∨ s.station.state = _) := absurd hs (not_deaf_of_onTheBus hon)
  numbered := hnumbered
  timerStopped := b.timerStopped
  timerRuns := b.timerRuns

theorem hearStart_eq (s : State) : ∃ p h, hearStart s =
    s.setBus { s.bus with position := p, positionHeld := true, hearing := some h } ∧ p ≠ .tail ∧
      (∀ k, p = .numbered k → s.bus.position = .numbered k) := by
  unfold hearStart
  split
  next => exact ⟨.mark, _, rfl, by simp, by simp⟩
  next hp =>
    refine ⟨.mark, s.bus.hearing.getD { opensRound := false, repeated := false }, ?_, by simp, by simp⟩
    rw [← hp]
  next k hp =>
    refine ⟨.numbered k, { opensRound := false, repeated := s.bus.positionHeld }, ?_, by simp, fun j hj => hj ▸ hp⟩
    rw [← hp]

theorem hearStart_works {s : State} (hon : s.onTheBus = true) : Works s (hearStart s) := by
  obtain ⟨p, h, heq, hp, hk⟩ := hearStart_eq s
  rw [heq]
  refine setBus_works (fun h => h) fun b => b.hears hon rfl hp (by simp) (fun hd => (b.drivesAsMember hd).1) fun k hpk => ?_
  exact b.numbered k (hk k hpk)

/-- A burst start in LISTEN: the silent-expiry count goes back to 0 (R48). -/
theorem resetExpiries_works (s : State) (n : Nat) (h : n ≤ 4) : Works s (s.setStation { s.station with silentExpiries := n }) :=
  .of_keeps (.of_writes (setStation_writes _ _) (capacity := fun _ c => { c with silentExpiries := h })
    (heldBack := fun _ p => { p with }) (bus := fun _ b => { b with }) (offer := fun _ o => { o with })
    (ring := fun _ _ r => { r with }) (landing := fun _ l => { l with })) (setStation_writes _ _)

theorem takeBurstStart_works (s : State) : Works s (takeBurstStart s) := by
  unfold takeBurstStart
  split
  · exact .refl
  · exact .refl
  next hl =>
    refine (resetExpiries_works s 0 (Nat.zero_le _)).trans ?_
    dsimp only
    split
    next ha => exact hearStart_works (onTheBus_iff.2 (.inr ⟨hl, ha⟩))
    next ha =>
      refine setBus_works (fun h => h) fun b => ?_
      exact { b with
        drivesAsMember := fun hd => ⟨(b.drivesAsMember hd).1, by simp⟩, tailSilent := fun h => absurd h ha,
        deaf := fun h => absurd h (by rw [State.setBus_station, State.setStation_station, hl]; simp) }
  next hm =>
    split
    · exact .refl
    · exact hearStart_works (onTheBus_iff.2 (.inl hm))

/-! ## Sending (R20, R28 to R31) -/

theorem send_works {s : State} (hm : s.isMember = true) (i : SentItem) (c : Bool) (x : Body) : Works s (send i c x s) := by
  have hon := onTheBus_of_member hm
  obtain ⟨p, h, heq, hp, hk⟩ := hearStart_eq s
  unfold send
  dsimp only
  rw [heq]
  refine setBus_works (s := s) (fun h => h) fun b => ?_
  exact b.hears hon rfl hp (by simp) (fun _ => isMember_iff.1 hm) fun k hpk => b.numbered k (hk k hpk)

theorem sendStream_works {s : State} (hm : s.isMember = true) : Works s (sendStream s) := by
  unfold sendStream
  split
  · exact send_works hm _ _ _
  · exact send_works hm _ _ _
  · exact .refl

theorem sendOpen_works {s : State} (hm : s.isMember = true) : Works s (sendOpen s) := by
  unfold sendOpen
  split
  · exact send_works hm _ _ _
  · exact send_works hm _ _ _
  · exact send_works hm _ _ _
  · exact .refl

theorem beginPosition_works {s : State} (hm : s.isMember = true) : Works s (beginPosition s) := by
  unfold beginPosition
  split
  · exact .refl
  · exact .refl
  · split
    · split
      · exact send_works hm _ _ _
      · exact .refl
    split
    · split
      · split
        · exact sendStream_works hm
        · exact .refl
      · exact .refl
    · exact sendOpen_works hm

theorem sendMark_works {s : State} (hm : s.isMember = true) : Works s (sendMark s) := by
  refine (send_works hm (.mark (composeMark s) (composeVerdict s).2.2) true (.mark (composeMark s))).trans ?_
  exact setBus_works (fun h => h) fun b => { b with }

/-! ## Readback (R32 to R35) -/

theorem countFault_works (i : SentItem) (s : State) : Works s (countFault i s) := by
  refine Works.trans (.of_keeps (raise_keeps .readbackFaults 1 s) (raise_writes _ _ _)) ?_
  refine setBus_works (fun h => ⟨saturate_le _ _ _, ?_⟩) fun b => { b with }
  dsimp only
  split
  · exact saturate_le _ _ _
  · exact h.2

theorem isolate_worksFrom {s u : State} (a : Works s u) (h : PlacementHeldBack s → u.banks.clear ≠ .clearingBoth)
    (code : FaultCode) : Works s (isolate code u) :=
  ⟨isolate_keepsFrom a.toKeepsInvariants h code, a.front.trans (isolate_front code u)⟩

theorem isolate_works {s : State} (hon : s.onTheBus = true) (code : FaultCode) : Works s (isolate code s) :=
  isolate_worksFrom .refl (fun p => p.clear_of_onTheBus hon) code

theorem countFault_onTheBus (i : SentItem) (s : State) : (countFault i s).onTheBus = s.onTheBus :=
  onTheBus_of_same rfl rfl

theorem takeFault_works {s : State} (hon : s.onTheBus = true) (i : SentItem) : Works s (takeFault i s) := by
  have hon' := (countFault_onTheBus i s).trans hon
  unfold takeFault
  dsimp only
  split
  · exact (countFault_works i s).trans (isolate_works hon' _)
  split
  · exact (countFault_works i s).trans (isolate_works hon' _)
  · exact countFault_works i s

theorem takeClean_works (i : SentItem) (s : State) : Works s (takeClean i s) := by
  refine setBus_works (fun h => ⟨Nat.zero_le _, ?_⟩) fun b => { b with }
  dsimp only
  split
  · exact Nat.zero_le _
  · exact h.2

theorem takeLoss_works (i : SentItem) (s : State) : Works s (takeLoss i s) := setBus_works (fun h => h) fun b => { b with }

theorem settleReadback_works {s : State} (hon : s.onTheBus = true) (r : Option (SentItem × Readback)) :
    Works s (settleReadback r s) := by
  have hon' : (afterBurst s).onTheBus = true := hon
  unfold settleReadback
  split
  · exact afterBurst_works s
  · exact (afterBurst_works s).trans (takeClean_works _ _)
  · exact (afterBurst_works s).trans (takeLoss_works _ _)
  · exact (afterBurst_works s).trans (takeFault_works hon' _)

theorem isolate_isIsolated (code : FaultCode) (s : State) : (isolate code s).isIsolated = true := by
  rw [isIsolated_iff, isolate_station]

/-- The readback outcome settled: the station is ISOLATED, or it stands where it stood. -/
theorem settleReadback_stays (r : Option (SentItem × Readback)) (s : State) : (settleReadback r s).isIsolated = true ∨
    (settleReadback r s).station = s.station ∧ (settleReadback r s).bus.aligned = s.bus.aligned ∧
      (settleReadback r s).bus.position = s.bus.position := by
  unfold settleReadback takeFault
  dsimp only
  repeat' split
  all_goals first | exact .inl (isolate_isIsolated _ _) | exact .inr ⟨rfl, rfl, rfl⟩

/-! ## The position counter (R16) -/

theorem next_numbered {p : Position} {k : Nat} (h : p.next = .numbered k) (hp : ∀ j, p = .numbered j → 1 ≤ j ∧ j ≤ 160) :
    1 ≤ k ∧ k ≤ 160 := by
  cases p with
  | mark =>
    rw [Position.next, Position.numbered.injEq] at h
    omega
  | numbered j =>
    have hnext : (Position.numbered j).next = if j < 160 then .numbered (j + 1) else .tail := rfl
    rw [hnext] at h
    split at h
    next hj =>
      rw [Position.numbered.injEq] at h
      omega
    next => exact absurd h (by simp)
  | tail => exact absurd h (by simp [Position.next])

/-- The counter at the next position, with nothing heard or driven there yet. -/
def nextPosition (s : State) : State :=
  s.setBus { s.bus with position := s.bus.position.next, positionHeld := false, hearing := none, driving := none }

theorem advancePosition_eq (s : State) :
    advancePosition s = if (nextPosition s).isMember then beginPosition (nextPosition s) else nextPosition s := rfl

theorem nextPosition_works (s : State) : Works s (nextPosition s) :=
  setBus_works (fun h => h) fun b => { b with
    drivesAsMember := fun hd => absurd rfl hd,
    unaligned := fun hu => by rw [State.setBus_bus, b.unaligned hu]; rfl,
    tailSilent := fun _ _ => rfl, deaf := fun _ => rfl, numbered := fun k hk => next_numbered hk b.numbered }

theorem advancePosition_works (s : State) : Works s (advancePosition s) := by
  rw [advancePosition_eq]
  split
  next hm => exact (nextPosition_works s).trans (beginPosition_works hm)
  next => exact nextPosition_works s

/-! ## The mark timer (R19, R20, R50) -/

theorem restartMarkTimer_works {s : State} (h : ¬ (s.station.state = .loading ∨ s.station.state = .isolated)) :
    Works s (restartMarkTimer s) :=
  .of_keeps (.of_writes (restartMarkTimer_writes s)
    (bus := fun _ b => { b with timerStopped := fun hs => absurd hs h, timerRuns := fun _ => by simp [restartMarkTimer] }))
    (restartMarkTimer_writes s)

theorem stopMarkTimer_works {s : State} (hm : s.isMember = true) :
    Works s (s.setRoundTimer { s.roundTimer with markTimer := none }) :=
  .of_keeps (.of_writes (setRoundTimer_writes _ _)
    (bus := fun _ b => { b with
      timerStopped := fun _ => rfl,
      timerRuns := fun hl => absurd ((isMember_iff.1 hm).symm.trans hl) (by simp) })) (setRoundTimer_writes _ _)

theorem joinAlone_works {s : State} (hl : s.station.state = .listen) : Works s (joinAlone s) :=
  ⟨joinAlone_keeps hl, joinAlone_front s⟩

theorem expireListening_works {s : State} (hl : s.station.state = .listen) : Works s (expireListening s) := by
  have hrestart : Works s (restartMarkTimer s) := restartMarkTimer_works (by rw [hl]; simp)
  have hcounted := hrestart.trans (resetExpiries_works _ (saturate Config.silentExpiryLimit
    (restartMarkTimer s).station.silentExpiries 1) (saturate_le _ _ _))
  unfold expireListening
  dsimp only
  split
  · exact hcounted.trans (joinAlone_works hl)
  · exact hcounted

theorem expireMember_works {s : State} (hm : s.isMember = true) : Works s (expireMember s) := by
  unfold expireMember
  dsimp only
  split
  · exact stopMarkTimer_works hm
  · exact (stopMarkTimer_works hm).trans (sendMark_works hm)

theorem expireMarkTimer_works (s : State) : Works s (expireMarkTimer s) := by
  unfold expireMarkTimer
  split
  · exact .refl
  split
  next hl => exact expireListening_works (isListen_iff.1 hl)
  split
  next hm => exact expireMember_works hm
  next => exact .refl

end Sys2Proof.Machine
end

section
/-! Every command keeps the invariants: the operations of a burst's end from the inside out, then the commands and the step. -/

namespace Sys2Proof.Machine

/-! ## Settles -/

theorem settleCommit_works {s : State} (hm : s.isMember = true) : Works s (settleCommit s) :=
  ⟨settleCommit_keeps (isMember_iff.1 hm), settleCommit_front s⟩

theorem settleAbandon_works {s : State} (hm : s.isMember = true) (path : SettlePath) : Works s (settleAbandon path s) :=
  ⟨settleAbandon_keeps (isMember_iff.1 hm) path, settleAbandon_front path s⟩

theorem resync_works {s : State} (hm : s.isMember = true) (f : Frame) (k : SettleKind) : Works s (resync f k s) :=
  ⟨resync_keeps (isMember_iff.1 hm) f k, resync_front f k s⟩

theorem raise_works (c : Counter) (n : Nat) (s : State) : Works s (raise c n s) := .of_keeps (raise_keeps c n s) (raise_writes c n s)

theorem post_works (k : EventKind) (f : Frame) (d : Byte) (s : State) : Works s (post k f d s) :=
  .of_keeps (post_keeps k f d s) (post_writes k f d s)

theorem takeAhead_works {s : State} (hm : s.isMember = true) (path : SettlePath) (f : Frame) (k : SettleKind) (o : FrameOrder) :
    Works s (takeAhead path f k o s) := by
  unfold takeAhead
  split
  · exact settleCommit_works hm
  · exact settleAbandon_works hm path
  · exact resync_works hm f .start
  · exact resync_works hm f _
  · exact .refl
  · exact .refl

theorem takeMark_works {s : State} (hm : s.isMember = true) (sender : Nat) (m : MarkFields) : Works s (takeMark sender m s) := by
  unfold takeMark
  split
  · exact .refl
  · exact post_works _ _ _ _
  · exact takeAhead_works hm _ _ _ _
  · exact takeAhead_works hm _ _ _ _

theorem takeOwnMark_works {s : State} (hm : s.isMember = true) (m : MarkFields) (verdict : Bool) :
    Works s (takeOwnMark m verdict s) := by
  unfold takeOwnMark
  split
  · split
    · exact settleCommit_works hm
    · exact settleAbandon_works hm _
    · exact .refl
  · exact .refl

theorem takeContent_works {s : State} (hm : s.isMember = true) (c : RoundContent) : Works s (takeContent c s) := by
  unfold takeContent
  split
  · exact .refl
  · exact takeMark_works hm _ _
  · exact takeOwnMark_works hm _ _

theorem recordMark_works (c : RoundContent) (s : State) : Works s (recordMark c s) := by
  unfold recordMark
  split
  · exact .refl
  · exact .of_keeps (.of_writes (setSettle_writes _ _) (capacity := fun _ c => { c with }) (landing := fun _ l => { l with }))
      (setSettle_writes _ _)
  · exact .refl

theorem raiseOpenAge_works (s : State) : Works s (raiseOpenAge s) :=
  .of_keeps (.of_writes (setSettle_writes _ _) (capacity := fun _ c => { c with openAge := saturate_le _ _ _ })
    (landing := fun _ l => { l with })) (setSettle_writes _ _)

theorem settleRoundStart_works (c : RoundContent) (s : State) : Works s (settleRoundStart c s) := by
  unfold settleRoundStart
  split
  next hm => exact (raiseOpenAge_works s).trans (takeContent_works (s := raiseOpenAge s) hm c)
  next => exact recordMark_works c s

theorem settleTakeState_works {s : State} (hm : s.isMember = true) (k : Nat) (m : StateFields) :
    Works s (settleTakeState k m s) := by
  unfold settleTakeState
  split
  · exact takeAhead_works hm _ _ _ _
  · exact .refl

/-! ## Round starts (R17) -/

theorem numberRoundStart_works (c : RoundContent) (s : State) : Works s (numberRoundStart c s) :=
  .of_keeps (.of_writes (numberRoundStart_writes c s) (bus := fun _ b => { b with })) (numberRoundStart_writes c s)

theorem arrive_works (c : RoundContent) (s : State) (a : RoundArrival) : Works s (arrive c s a) := by
  cases a with
  | number => exact numberRoundStart_works c s
  | ageing => exact .of_keeps (tableRoundStart_keeps s) (tableRoundStart_writes s)
  | silence => exact .of_keeps (captureRoundStart_keeps s) (captureRoundStart_writes s)
  | waits =>
    unfold arrive
    dsimp only
    split
    · exact .of_keeps (requesterRoundStart_keeps s) (requesterRoundStart_writes s)
    · exact .refl
  | settle => exact settleRoundStart_works c s

/-- The arrivals of a round start, after the mark timer. -/
def roundArrivals (c : RoundContent) (o : Orders) (s : State) : State := (roundOrder o).foldl (arrive c) (restartMarkTimer s)

theorem roundStart_eq (c : RoundContent) (o : Orders) (s : State) :
    roundStart c o s = if (roundArrivals c o s).isListen then countJoin (roundArrivals c o s) else roundArrivals c o s := rfl

theorem arrivals_writes (c : RoundContent) (l : List RoundArrival) (s : State) : OnlyWrites [.roundTimer, .settle, .members,
    .capture, .ring, .publishQueue, .responder, .coverage, .landing, .engine, .banks, .freeSeq, .requester, .port] s
      (l.foldl (arrive c) s) := foldl_writes _ (arrive_writes c) _ _

theorem roundArrivals_writes (c : RoundContent) (o : Orders) (s : State) : OnlyWrites [.roundTimer, .settle, .members,
    .capture, .ring, .publishQueue, .responder, .coverage, .landing, .engine, .banks, .freeSeq, .requester, .port] s
      (roundArrivals c o s) :=
  .followedBy ((restartMarkTimer_writes _).widen (by decide)) (arrivals_writes c _ _) (by decide)

theorem roundArrivals_works {s : State} (hon : s.onTheBus = true) (c : RoundContent) (o : Orders) :
    Works s (roundArrivals c o s) :=
  (restartMarkTimer_works (not_deaf_of_onTheBus hon)).trans (.foldl _ (arrive_works c) _ _)

theorem countJoin_works {s : State} (hl : s.station.state = .listen) (ha : s.bus.aligned = true) : Works s (countJoin s) :=
  ⟨countJoin_keeps hl ha, countJoin_front s⟩

theorem roundStart_works {s : State} (hon : s.onTheBus = true) (c : RoundContent) (o : Orders) : Works s (roundStart c o s) := by
  have harrivals := roundArrivals_works hon c o
  rw [roundStart_eq]
  split
  next hl =>
    have hon' : (roundArrivals c o s).onTheBus = true := (onTheBus_of_writes (roundArrivals_writes c o s) (by decide)).trans hon
    have hl := isListen_iff.1 hl
    rcases onTheBus_iff.1 hon' with hm | ⟨-, ha⟩
    · exact absurd (hl.symm.trans hm) (by simp)
    · exact harrivals.trans (countJoin_works hl ha)
  next => exact harrivals

/-! ## Delivery (R24) -/

theorem stateArrive_works {s : State} (hm : s.isMember = true) (k : Nat) (m : StateFields) (a : StateArrival) :
    Works s (stateArrive k m s a) := by
  cases a with
  | record => exact .of_keeps (tableTakeState_keeps k m s) (tableTakeState_writes k m s)
  | catchUp => exact settleTakeState_works hm k m
  | published => exact .of_keeps (requesterTakeState_keeps k m s) (requesterTakeState_writes k m s)

theorem stateArrivals_works (k : Nat) (m : StateFields) (l : List StateArrival) :
    ∀ s, s.isMember = true → Works s (l.foldl (stateArrive k m) s) := by
  induction l with
  | nil => exact fun _ _ => .refl
  | cons a l ih =>
    intro s hm
    refine (stateArrive_works hm k m a).trans (ih _ ?_)
    rw [isMember_of_writes (stateArrive_writes k m s a) (by decide), hm]

theorem deliverMember_works {s : State} (hm : s.isMember = true) (b : Burst) (o : Orders) : Works s (deliverMember b o s) := by
  unfold deliverMember
  split
  · exact .refl
  · exact stateArrivals_works _ _ _ _ hm
  · exact .of_keeps (takeSegment_keeps _ s) (takeSegment_writes _ s)
  · exact .of_keeps (takeRequest_keeps _ _ s) (takeRequest_writes _ _ s)
  · split
    · exact .of_keeps (takeStatus_keeps _ _ s) (takeStatus_writes _ _ s)
    · exact .refl

theorem deliverListening_works {s : State} (hon : s.onTheBus = true) (b : Burst) : Works s (deliverListening b s) := by
  unfold deliverListening
  split
  · split
    · exact isolate_works hon _
    · exact .of_keeps (tableTakeState_keeps _ _ s) (tableTakeState_writes _ _ s)
  · exact recordMark_works _ s
  · exact .refl
  · exact .refl
  · exact .refl

theorem deliver_works {s : State} (hon : s.onTheBus = true) (j : Judgment) (o : Orders) : Works s (deliver j o s) := by
  unfold deliver
  split
  · split
    next hm => exact deliverMember_works hm _ o
    next => exact deliverListening_works hon _
  · exact .refl
  · exact .refl
  · exact .refl

theorem reportPassed_works (p : Option SentItem) (s : State) : Works s (reportPassed p s) := by
  unfold reportPassed
  split
  · exact .refl
  · exact .refl
  · exact .refl
  · exact .of_keeps (freshPassed_keeps s) (freshPassed_writes s)
  · exact .of_keeps (slotPassed_keeps s) (slotPassed_writes s)
  · exact .of_keeps (requestPassed_keeps _ s) (requestPassed_writes _ s)
  · exact .of_keeps (statusPassed_keeps s) (statusPassed_writes s)

theorem reportAndDeliver_works {s : State} (hon : s.onTheBus = true) (p : Option SentItem) (j : Judgment) (o : Orders) :
    Works s (reportAndDeliver p j o s) := by
  unfold reportAndDeliver
  split
  · have hon' : (reportPassed p s).onTheBus = true := (onTheBus_of_writes (reportPassed_writes p s) (by decide)).trans hon
    exact (reportPassed_works p s).trans (deliver_works hon' j o)
  · exact (deliver_works hon j o).trans (reportPassed_works p _)

/-! ## The end of a burst (R16, R22) -/

theorem countJudgment_works (j : Judgment) (s : State) : Works s (countJudgment j s) := by
  unfold countJudgment
  split
  · exact raise_works _ _ _
  · exact raise_works _ _ _
  · exact raise_works _ _ _
  · exact .refl

theorem concludeBurst_works {s : State} (hon : s.onTheBus = true) (h : Hearing) (p : Option SentItem) (j : Judgment)
    (o : Orders) : Works s (concludeBurst h p j o s) := by
  have hon' : (countJudgment j s).onTheBus = true := (onTheBus_of_writes (countJudgment_writes j s) (by decide)).trans hon
  unfold concludeBurst
  dsimp only
  split
  · exact (countJudgment_works j s).trans (roundStart_works hon' _ o)
  · exact (countJudgment_works j s).trans (reportAndDeliver_works hon' p j o)

theorem endBurst_works {s : State} (hon : s.onTheBus = true) (h : Hearing) (cut : Bool) (heard : List Byte) (o : Orders) :
    Works s (endBurst h cut heard o s) := by
  have hreadback := settleReadback_works hon (ownReadback s heard)
  unfold endBurst
  dsimp only
  split
  next => exact hreadback
  next hi =>
    obtain ⟨hstation, haligned, -⟩ := (settleReadback_stays (ownReadback s heard) s).resolve_left hi
    exact hreadback.trans (concludeBurst_works ((onTheBus_of_same hstation haligned).trans hon) _ _ _ o)

/-- The station a valid candidate has aligned, at the end of the MARK position (R21). -/
def alignedAtMark (s : State) : State :=
  s.setBus { s.bus with hearing := none, aligned := true, position := .mark, positionHeld := true }

theorem alignedAtMark_works {s : State} (hl : s.station.state = .listen) : Works s (alignedAtMark s) :=
  setBus_works (fun h => h) fun b => { b with
    drivesAsMember := fun hd => absurd (b.silent (by rw [hl]; simp)) hd, unaligned := fun hu => absurd hu (by simp),
    tailSilent := fun _ ht => absurd ht (by simp), memberAligned := fun _ => rfl, deaf := fun _ => rfl,
    numbered := fun k hk => absurd hk (by simp) }

theorem endCandidate_of_mark {s : State} {heard : List Byte} {k : Nat} {m : MarkFields}
    (h : candidateMark (s.setBus { s.bus with hearing := none }) heard = some (k, m)) (o : Orders) :
    endCandidate heard o s = roundStart (.received k m) o (alignedAtMark s) := by
  unfold endCandidate
  dsimp only
  rw [h]
  rfl

theorem endCandidate_of_none {s : State} {heard : List Byte}
    (h : candidateMark (s.setBus { s.bus with hearing := none }) heard = none) (o : Orders) :
    endCandidate heard o s = s.setBus { s.bus with hearing := none } := by
  unfold endCandidate
  dsimp only
  rw [h]

theorem endCandidate_works {s : State} (hl : s.station.state = .listen) (heard : List Byte) (o : Orders) :
    Works s (endCandidate heard o s) := by
  cases h : candidateMark (s.setBus { s.bus with hearing := none }) heard with
  | none =>
    rw [endCandidate_of_none h]
    exact dropHearing_works (by rw [hl]; simp)
  | some v =>
    obtain ⟨k, m⟩ := v
    rw [endCandidate_of_mark h]
    exact (alignedAtMark_works hl).trans (roundStart_works (s := alignedAtMark s) (onTheBus_iff.2 (.inr ⟨hl, rfl⟩)) _ o)

theorem takeBurst_works (heard : List Byte) (o : Orders) (s : State) : Works s (takeBurst heard o s) := by
  unfold takeBurst
  split
  · exact .refl
  split
  next hon => exact endBurst_works hon _ _ _ o
  split
  next hl => exact endCandidate_works (isListen_iff.1 hl) heard o
  next => exact .refl

theorem cutBurst_works {s : State} (hon : s.onTheBus = true) (heard : List Byte) (o : Orders) : Works s (cutBurst heard o s) := by
  unfold cutBurst
  split
  · exact endBurst_works hon _ _ _ o
  · exact .refl

theorem endPosition_works {s : State} (hon : s.onTheBus = true) (heard : List Byte) (o : Orders) :
    Works s (endPosition heard o s) := by
  have hcut := cutBurst_works hon heard o
  unfold endPosition
  split
  · exact .refl
  · dsimp only
    split
    · exact hcut
    · exact hcut.trans (advancePosition_works _)

theorem takePositionEnd_works (heard : List Byte) (o : Orders) (s : State) : Works s (takePositionEnd heard o s) := by
  unfold takePositionEnd
  split
  next hon => exact endPosition_works hon heard o
  split
  next hl => exact dropHearing_works (by rw [isListen_iff.1 hl]; simp)
  next => exact .refl

/-! ## The status port (R163 to R167) -/

theorem answer_eq (response : List Byte) (beyond : Byte) (s : State) : answer response beyond s = s.setPort { s.port with
    transaction := if portListens s then some { response := response, beyond := beyond, reported := none }
      else s.port.transaction } := by
  unfold answer
  split <;> rfl

theorem takeReadEvent_eq (s : State) : takeReadEvent s = s.setPort { s.port with
    transaction := if portListens s then
        some { response := eventResponse s, beyond := 0, reported := some (!s.port.events.isEmpty, s.port.dropped) }
      else s.port.transaction } := by
  unfold takeReadEvent
  split <;> rfl

theorem takeClearCounters_eq (s : State) : takeClearCounters s = s.setPort { s.port with
    counters := if portListens s then List.replicate 22 0 else s.port.counters,
    transaction := if portListens s then some { response := [], beyond := 0, reported := none } else s.port.transaction } := by
  unfold takeClearCounters
  split <;> rfl

theorem takeClearCounters_works (s : State) : Works s (takeClearCounters s) := by
  rw [takeClearCounters_eq]
  refine .of_keeps (keeps_of_port (setPort_writes _ _) fun h => ?_) (setPort_writes _ _)
  obtain ⟨hevents, hdropped, hlength, hcounters⟩ := h
  refine ⟨hevents, hdropped, ?_⟩
  rw [State.setPort_port]
  dsimp only
  split
  · exact ⟨List.length_replicate, fun n hn => by rw [List.eq_of_mem_replicate hn]; exact Nat.zero_le _⟩
  · exact ⟨hlength, hcounters⟩

/-- A new transaction changes nothing an invariant reads. -/
theorem setTransaction_works (s : State) (t : Option Transaction) : Works s (s.setPort { s.port with transaction := t }) :=
  .of_keeps (keeps_of_port (setPort_writes _ _) fun h => h) (setPort_writes _ _)

theorem answer_works (response : List Byte) (beyond : Byte) (s : State) : Works s (answer response beyond s) := by
  rw [answer_eq]
  exact setTransaction_works s _

theorem takeReadEvent_works (s : State) : Works s (takeReadEvent s) := by
  rw [takeReadEvent_eq]
  exact setTransaction_works s _

theorem takeCommandByte_works (code : Byte) (s : State) : Works s (takeCommandByte code s) := by
  unfold takeCommandByte
  split
  · exact answer_works _ _ s
  · exact answer_works _ _ s
  · exact answer_works _ _ s
  · exact takeClearCounters_works s
  · exact takeReadEvent_works s
  · exact answer_works _ _ s

theorem completeTransaction_works (s : State) : Works s (completeTransaction s) := by
  unfold completeTransaction
  split
  · exact .refl
  split
  · exact setTransaction_works s none
  · refine .of_keeps (keeps_of_port (setPort_writes _ _) fun h => ?_) (setPort_writes _ _)
    obtain ⟨hevents, hdropped, hcounters⟩ := h
    refine ⟨?_, le_trans (Nat.sub_le _ _) hdropped, hcounters⟩
    rw [State.setPort_port]
    dsimp only
    split
    · rw [List.length_drop]
      exact le_trans (Nat.sub_le _ _) hevents
    · exact hevents

/-! ## The commands -/

theorem ite_works {c : Prop} [Decidable c] {s t : State} (h : c → Works s t) : Works s (if c then t else s) := by
  split
  next hc => exact h hc
  next => exact .refl

/-- A fault that is due is the readback fault of a burst that a MEMBER drives. -/
theorem member_of_faultComes {s : State} {heard : List Byte} {item : SentItem} (h : faultComes s heard = some item) :
    s.isMember = true := by
  unfold faultComes at h
  split at h
  · split at h
    next hm => exact hm
    next => exact absurd h (by simp)
  · exact absurd h (by simp)

theorem faultDue_works {s : State} {heard : List Byte} (due : SentItem → State → Bool) :
    Works s (match faultComes s heard with
      | some item => if due item s then settleReadback (ownReadback s heard) s else s
      | none => s) := by
  split
  next item h =>
    exact ite_works fun _ => settleReadback_works (onTheBus_of_member (member_of_faultComes h)) _
  next => exact .refl

theorem works_of_next {s t u : State} (h : (Host.Outcome.next u : Host.Outcome State Fault Refusal) = .next t)
    (hw : Works s u) : Works s t := by
  rw [Host.Outcome.next.injEq] at h
  exact h ▸ hw

theorem keeps_of_next {s t u : State} (h : (Host.Outcome.next u : Host.Outcome State Fault Refusal) = .next t)
    (hk : KeepsInvariants s u) : KeepsInvariants s t := by
  rw [Host.Outcome.next.injEq] at h
  exact h ▸ hk

/-- Every command but RESET, the end of the read, the end of the start-up clear and a scan start. -/
theorem exec_works {c : Instr} {s t : State} (hreset : c ≠ .reset) (hread : ∀ image, c ≠ .configReadComplete image)
    (hclear : c ≠ .startUpClearComplete) (hscan : c ≠ .scanStart) (h : exec c s = .next t) : Works s t := by
  have burst : ∀ (b : Bool) (heard : List Byte) (o : Orders), Works s (if b then takeBurst heard o s else s) := fun b heard o =>
    ite_works fun _ => takeBurst_works heard o s
  cases c with
  | reset => exact absurd rfl hreset
  | configReadComplete image => exact absurd rfl (hread image)
  | startUpClearComplete => exact absurd rfl hclear
  | scanStart => exact absurd rfl hscan
  | markTimerExpiry => exact works_of_next h (expireMarkTimer_works s)
  | joinAlone =>
    refine works_of_next h (ite_works fun hc => ?_)
    simp only [Bool.and_eq_true] at hc
    exact expireListening_works (isListen_iff.1 hc.1.1)
  | burstStart => exact works_of_next h (takeBurstStart_works s)
  | positionEnd heard o => exact works_of_next h (takePositionEnd_works heard o s)
  | burstTaken heard o => exact works_of_next h (takeBurst_works heard o s)
  | mediumFault heard => exact works_of_next h (faultDue_works mediumFaultDue)
  | duplicateNumber heard => exact works_of_next h (faultDue_works collisionDue)
  | memberAbsent heard o => exact works_of_next h (burst _ heard o)
  | joinByCount heard o => exact works_of_next h (burst _ heard o)
  | frameStart => exact works_of_next h (.of_keeps (takeFrameStart_keeps s) (takeFrameStart_writes s))
  | rowCompletion pixels => exact works_of_next h (.of_keeps (takeRow_keeps pixels s) (takeRow_writes pixels s))
  | inputLost heard o => exact works_of_next h (burst _ heard o)
  | placementComplete => exact works_of_next h ⟨completePlacement_keeps s, completePlacement_front s⟩
  | bankClearComplete => exact works_of_next h ⟨endBankClear_keeps s, endBankClear_front s⟩
  | scanEnd => exact works_of_next h (.of_keeps (.of_writes (setScan_writes _ _)) (setScan_writes _ _))
  | backoffEnd heard o => exact works_of_next h (burst _ heard o)
  | repairTimeout heard o => exact works_of_next h (burst _ heard o)
  | readSummary => exact works_of_next h (takeCommandByte_works _ s)
  | readMembers => exact works_of_next h (takeCommandByte_works _ s)
  | readCounters => exact works_of_next h (takeCommandByte_works _ s)
  | clearCounters => exact works_of_next h (takeCommandByte_works _ s)
  | readEvent => exact works_of_next h (takeCommandByte_works _ s)
  | unknownCommand code =>
    refine works_of_next h ?_
    unfold takeUnknown
    split
    · exact .refl
    · exact takeCommandByte_works _ s
  | transactionComplete => exact works_of_next h (completeTransaction_works s)
  | transactionCutShort => exact works_of_next h (setTransaction_works s none)
  | resetRelease => exact works_of_next h (.of_keeps (.of_writes (setResetAsserted_writes _ _)) (setResetAsserted_writes _ _))

theorem ite_keeps {c : Prop} [Decidable c] {s t : State} (h : c → KeepsInvariants s t) : KeepsInvariants s (if c then t else s) := by
  split
  next hc => exact h hc
  next => exact .refl

/-- Every command keeps the invariants. -/
theorem exec_keeps {c : Instr} {s t : State} (h : exec c s = .next t) : KeepsInvariants s t := by
  by_cases hreset : c = .reset
  · subst hreset
    exact keeps_of_next h (applyReset_keeps s)
  by_cases hread : ∃ image, c = .configReadComplete image
  · obtain ⟨image, rfl⟩ := hread
    refine keeps_of_next h (ite_keeps fun hc => ?_)
    rw [Bool.and_eq_true, beq_iff_eq] at hc
    exact endRead_keeps hc.1 hc.2 image
  by_cases hclear : c = .startUpClearComplete
  · subst hclear
    refine keeps_of_next h (ite_keeps fun hc => ?_)
    rw [Bool.and_eq_true, beq_iff_eq] at hc
    exact startUpClearComplete_keeps hc.1
  by_cases hscan : c = .scanStart
  · subst hscan
    exact keeps_of_next h (ite_keeps fun _ => scanStart_keeps s)
  · exact (exec_works hreset (fun image hi => hread ⟨image, hi⟩) hclear hscan h).toKeepsInvariants

theorem step_keeps {s t : State} (h : step s = .next t) : KeepsInvariants s t := by
  unfold step at h
  split at h
  · rw [Host.Outcome.next.injEq] at h
    exact h ▸ scanOn_keeps s
  · exact (KeepsInvariants.of_writes (setPending_writes s _)).trans (exec_keeps h)

/-! ## The statements -/

/-- Settles O53. -/
theorem stepKeepsCapacities : Obligations.StepKeepsCapacities := fun _ _ h =>
  ⟨(step_keeps h).capacity, (step_keeps h).canonical⟩

/-- Settles O54. -/
theorem stepKeepsPlacementHeldBack : Obligations.StepKeepsPlacementHeldBack := fun _ _ h => (step_keeps h).heldBack

/-- Settles O55. -/
theorem stepKeepsBusAndOfferInOrder : Obligations.StepKeepsBusAndOfferInOrder := fun _ _ h =>
  ⟨fun b o => ⟨(step_keeps h).bus b, (step_keeps h).offer o⟩, (step_keeps h).ring⟩

/-- Settles O56. -/
theorem stepKeepsCoverageCounts : Obligations.StepKeepsCoverageCounts := fun _ _ h =>
  ⟨(step_keeps h).coverage, (step_keeps h).landing⟩

/-- Settles O57. -/
theorem stepKeepsRepairListInOrder : Obligations.StepKeepsRepairListInOrder := fun _ _ h => (step_keeps h).repair

end Sys2Proof.Machine
end

section
/-! The machine's step and the status port: what each port command answers, and what it leaves alone. -/

namespace Sys2Proof.Machine

/-! ## The machine -/

/-- Settles O1. -/
theorem stepRunsFrontCommand : Obligations.StepRunsFrontCommand := by
  intro s c rest h
  rw [step, h]

/-- The fields a command other than RESET and the end of the read can write. -/
def workFields : List Field :=
  [.station, .bus, .roundTimer, .members, .settle, .capture, .ring, .publishQueue, .coverage, .landing, .engine, .banks, .scan,
    .requester, .responder, .port, .resetAsserted, .freeSeq]

theorem writes_of_next {fs : List Field} {s t u : State} (h : (Host.Outcome.next u : Host.Outcome State Fault Refusal) = .next t)
    (w : OnlyWrites fs s u) : OnlyWrites fs s t := by
  rw [Host.Outcome.next.injEq] at h
  exact h ▸ w

theorem next_congr {s t : State} (h : s = t) : (Host.Outcome.next s : Host.Outcome State Fault Refusal) = .next t := congrArg _ h

theorem ite_writes {fs : List Field} {c : Prop} [Decidable c] {s t : State} (h : OnlyWrites fs s t) :
    OnlyWrites fs s (if c then t else s) := by
  split
  · exact h
  · exact .refl

theorem answer_writes (response : List Byte) (beyond : Byte) (s : State) : OnlyWrites [.port] s (answer response beyond s) := by
  rw [answer_eq]
  exact setPort_writes _ _

theorem takeCommandByte_writes (code : Byte) (s : State) : OnlyWrites [.port] s (takeCommandByte code s) := by
  unfold takeCommandByte
  split
  · exact answer_writes _ _ s
  · exact answer_writes _ _ s
  · exact answer_writes _ _ s
  · exact takeClearCounters_eq s ▸ setPort_writes _ _
  · exact takeReadEvent_eq s ▸ setPort_writes _ _
  · exact answer_writes _ _ s

theorem takeUnknown_writes (code : Byte) (s : State) : OnlyWrites [.port] s (takeUnknown code s) := by
  unfold takeUnknown
  split
  · exact .refl
  · exact takeCommandByte_writes code s

theorem completeTransaction_writes (s : State) : OnlyWrites [.port] s (completeTransaction s) := by
  unfold completeTransaction
  split
  · exact .refl
  · split <;> exact setPort_writes _ _

/-- Settles O10: every port command is an update of the port. -/
theorem portCommandsStayInPort : Obligations.PortCommandsStayInPort := by
  intro c s t hc h
  cases c with
  | readSummary => exact writes_of_next h (takeCommandByte_writes _ s)
  | readMembers => exact writes_of_next h (takeCommandByte_writes _ s)
  | readCounters => exact writes_of_next h (takeCommandByte_writes _ s)
  | clearCounters => exact writes_of_next h (takeCommandByte_writes _ s)
  | readEvent => exact writes_of_next h (takeCommandByte_writes _ s)
  | unknownCommand code => exact writes_of_next h (takeUnknown_writes code s)
  | transactionComplete => exact writes_of_next h (completeTransaction_writes s)
  | transactionCutShort => exact writes_of_next h (setPort_writes _ _)
  | _ => exact absurd hc (by simp [isPortCommand])

theorem settleDue_writes (due : SentItem → State → Bool) (heard : List Byte) (s : State) : OnlyWrites workFields s
    (match faultComes s heard with
      | some item => if due item s then settleReadback (ownReadback s heard) s else s
      | none => s) := by
  split
  · exact ite_writes ((settleReadback_writes _ s).widen (by decide))
  · exact .refl

/-- What a command other than RESET and the end of the read can write. -/
theorem exec_writes {c : Instr} {s t : State} (hreset : c ≠ .reset) (hread : ∀ image, c ≠ .configReadComplete image)
    (h : exec c s = .next t) : OnlyWrites workFields s t := by
  have burst : ∀ (b : Bool) (heard : List Byte) (o : Orders), OnlyWrites workFields s (if b then takeBurst heard o s else s) :=
    fun b heard o => ite_writes ((takeBurst_writes heard o s).widen (by decide))
  cases hport : isPortCommand c with
  | true => exact (portCommandsStayInPort c s t hport h).widen (by decide)
  | false =>
    cases c with
    | reset => exact absurd rfl hreset
    | configReadComplete image => exact absurd rfl (hread image)
    | startUpClearComplete =>
      refine writes_of_next h (ite_writes ?_)
      exact .followedBy ((endStartUpClear_writes s).widen (by decide)) (enterListen_writes _) (by decide)
    | markTimerExpiry => exact writes_of_next h ((expireMarkTimer_writes s).widen (by decide))
    | joinAlone => exact writes_of_next h (ite_writes ((expireListening_writes s).widen (by decide)))
    | burstStart => exact writes_of_next h ((takeBurstStart_writes s).widen (by decide))
    | positionEnd heard o => exact writes_of_next h ((takePositionEnd_writes heard o s).widen (by decide))
    | burstTaken heard o => exact writes_of_next h ((takeBurst_writes heard o s).widen (by decide))
    | mediumFault heard => exact writes_of_next h (settleDue_writes mediumFaultDue heard s)
    | duplicateNumber heard => exact writes_of_next h (settleDue_writes collisionDue heard s)
    | memberAbsent heard o => exact writes_of_next h (burst _ heard o)
    | joinByCount heard o => exact writes_of_next h (burst _ heard o)
    | frameStart => exact writes_of_next h ((takeFrameStart_writes s).widen (by decide))
    | rowCompletion pixels => exact writes_of_next h ((takeRow_writes pixels s).widen (by decide))
    | inputLost heard o => exact writes_of_next h (burst _ heard o)
    | placementComplete => exact writes_of_next h ((completePlacement_writes s).widen (by decide))
    | bankClearComplete => exact writes_of_next h ((endBankClear_writes s).widen (by decide))
    | scanStart => exact writes_of_next h (ite_writes ((scanStart_writes s).widen (by decide)))
    | scanEnd => exact writes_of_next h ((setScan_writes _ _).widen (by decide))
    | backoffEnd heard o => exact writes_of_next h (burst _ heard o)
    | repairTimeout heard o => exact writes_of_next h (burst _ heard o)
    | resetRelease => exact writes_of_next h ((setResetAsserted_writes _ _).widen (by decide))
    | _ => exact absurd hport (by simp [isPortCommand])

theorem exec_next (c : Instr) (s : State) : ∃ t, exec c s = .next t := by
  cases c <;> exact ⟨_, rfl⟩

theorem acceptImage_writes (bs : List Byte) (s : State) :
    OnlyWrites [.loader, .coverage, .banks, .station, .members, .bus, .settle, .roundTimer] s (acceptImage bs s) := by
  cases hsink : (parseImage bs).sinkRole with
  | true =>
    rw [acceptImage_of_sink hsink]
    refine .followedBy ?_ (setBanks_writes _ _) (by decide)
    exact .followedBy ((setLoader_writes _ _).widen (by decide)) (setCoverage_writes _ _) (by decide)
  | false =>
    rw [acceptImage_of_not_sink hsink]
    exact .followedBy ((setLoader_writes _ _).widen (by decide)) (enterListen_writes _) (by decide)

theorem endRead_pending (bs : List Byte) (s : State) : (endRead bs s).pending = s.pending := by
  unfold endRead
  split
  · exact isolate_writes _ (s.setLoader _) .pending (by decide)
  · exact acceptImage_writes bs s .pending (by decide)

/-- Settles O2. -/
theorem commandsCompleteAndLeaveQueue : Obligations.CommandsCompleteAndLeaveQueue := by
  intro c s
  obtain ⟨t, h⟩ := exec_next c s
  refine ⟨t, h, ?_⟩
  by_cases hreset : c = .reset
  · subst hreset
    rw [← Host.Outcome.next.inj h]
    rfl
  by_cases hread : ∃ image, c = .configReadComplete image
  · obtain ⟨image, rfl⟩ := hread
    rw [← Host.Outcome.next.inj h]
    split
    · exact endRead_pending image s
    · rfl
  · exact exec_writes hreset (fun image hi => hread ⟨image, hi⟩) h .pending (by decide)

/-- Settles O3: every field of the state that RESET leaves, read off. -/
theorem resetGivesResetValues : Obligations.ResetGivesResetValues := by
  intro s
  refine ⟨applyReset s, rfl, ?_⟩
  repeat' constructor

/-! ## Taking a command (R163) -/

theorem portListens_iff {s : State} : portListens s = true ↔ s.resetAsserted = false ∧ s.port.transaction = none := by
  simp [portListens]

theorem answer_of_listens {s : State} (h : portListens s = true) (response : List Byte) (beyond : Byte) :
    answer response beyond s = s.setPort { s.port with
      transaction := some { response := response, beyond := beyond, reported := none } } := by
  rw [answer_eq, if_pos h]

theorem takeReadEvent_of_listens {s : State} (h : portListens s = true) : takeReadEvent s = s.setPort { s.port with
    transaction := some
      { response := eventResponse s, beyond := 0, reported := some (!s.port.events.isEmpty, s.port.dropped) } } := by
  rw [takeReadEvent_eq, if_pos h]

theorem takeClearCounters_of_listens {s : State} (h : portListens s = true) : takeClearCounters s = s.setPort { s.port with
    counters := List.replicate 22 0, transaction := some { response := [], beyond := 0, reported := none } } := by
  rw [takeClearCounters_eq, if_pos h, if_pos h]

theorem takeCommandByte_of_deaf {s : State} (h : portListens s = false) (code : Byte) : takeCommandByte code s = s := by
  have hdeaf : ¬ portListens s = true := by rw [h]; simp
  unfold takeCommandByte answer takeClearCounters takeReadEvent
  split <;> rw [if_neg hdeaf]

theorem isCommandCode_iff {code : Byte} : isCommandCode code = true ↔ code ∈ [0x01#8, 0x02#8, 0x03#8, 0x04#8, 0x05#8] := by
  revert code
  decide

theorem takeCommandByte_of_unknown {code : Byte} (h : isCommandCode code = false) (s : State) :
    takeCommandByte code s = answer [] 0xFF s := by
  have hcode : ¬ (1 ≤ code.toNat ∧ code.toNat ≤ 5) := by simpa [isCommandCode] using h
  unfold takeCommandByte
  split
  all_goals first | rfl | omega

theorem takeUnknown_of_unknown {code : Byte} (h : isCommandCode code = false) (s : State) :
    takeUnknown code s = answer [] 0xFF s := by
  rw [takeUnknown, h, if_neg (by simp), takeCommandByte_of_unknown h]

theorem takeUnknown_of_code {code : Byte} (h : isCommandCode code = true) (s : State) : takeUnknown code s = s := by
  rw [takeUnknown, if_pos h]

/-! ## READ SUMMARY (R164, R175) -/

theorem bitOf_mul (b : Bool) (n : Nat) : bitOf b * n = if b = true then n else 0 := by
  cases b <;> simp [bitOf]

theorem bitOf_isSome_mul {α : Type} [DecidableEq α] (o : Option α) (n : Nat) : bitOf o.isSome * n = if o = none then 0 else n := by
  cases o <;> simp [bitOf]

theorem bitOf_isNone_mul {α : Type} [DecidableEq α] (o : Option α) (n : Nat) : bitOf o.isNone * n = if o = none then n else 0 := by
  cases o <;> simp [bitOf]

/-- Settles O4. -/
theorem readSummaryAnswers : Obligations.ReadSummaryAnswers := by
  intro s hreset hidle
  refine ⟨next_congr (answer_of_listens (portListens_iff.2 ⟨hreset, hidle⟩) _ _), ?_⟩
  rw [summaryResponse, bitOf_isSome_mul, bitOf_isNone_mul, bitOf_mul]
  simp only [beq_iff_eq]
  rfl

/-! ## READ MEMBERS (R59, R175) -/

/-- The roles of an entry, in the top bits of its second byte. -/
def rolesOf (e : MemberEntry) : Nat :=
  (if e.source then 128 else 0) + (if e.sink then 64 else 0) + (if e.eligible then 32 else 0)

/-- What of a record the second byte shows present. -/
def presenceOf (r : Record) : Nat := 16 + (if r.ready = none then 0 else 8) + (if r.shown = none then 0 else 4)

theorem memberResponse_of_unrecorded {e : MemberEntry} (h : e.record = none) :
    memberResponse e = [e.status.code, toByte (rolesOf e), toByte e.rounds] ++ List.replicate 10 0 := by
  have hroles : bitOf e.source * 128 + bitOf e.sink * 64 + bitOf e.eligible * 32 = rolesOf e := by
    simp only [bitOf_mul, rolesOf]
  simp [memberResponse, h, ← hroles, frameOrZero, toPair, bitOf, toByte, List.replicate]

/-- The bytes of a record: settled frame, kind, ready and shown frame. -/
def recordBytes (r : Record) : List Byte :=
  [toByte (r.settled.toNat / 256), toByte r.settled.toNat, r.kind.code,
    toByte ((r.ready.getD 0).toNat / 256), toByte (r.ready.getD 0).toNat,
    toByte ((r.shown.getD 0).toNat / 256), toByte (r.shown.getD 0).toNat]

theorem memberResponse_of_unoffered {e : MemberEntry} {r : Record} (h : e.record = some r) (ho : r.offer = none) :
    memberResponse e = [e.status.code, toByte (rolesOf e + presenceOf r), toByte e.rounds] ++ recordBytes r ++ [0, 0, 0] := by
  have hroles : bitOf e.source * 128 + bitOf e.sink * 64 + bitOf e.eligible * 32 = rolesOf e := by
    simp only [bitOf_mul, rolesOf]
  have hpresence : 1 * 16 + bitOf r.ready.isSome * 8 + bitOf r.shown.isSome * 4 = presenceOf r := by
    simp only [bitOf_isSome_mul, presenceOf]
  simp only [memberResponse, h, ho, Option.bind_some, Option.bind_none, Option.isSome_some, Option.map_some, Option.map_none,
    Option.isSome_none, Option.getD_none, Option.getD_some]
  rw [← hroles, ← hpresence]
  simp only [bitOf, frameOrZero, toPair, recordBytes]
  simp [Nat.add_assoc, toByte]

theorem memberResponse_of_offered {e : MemberEntry} {r : Record} (h : e.record = some r) {a : Nat} {f : Option Frame}
    {published : Bool} (ho : r.offer = some ⟨a, f, published⟩) :
    memberResponse e = [e.status.code, toByte (rolesOf e + presenceOf r + 2 + (if published then 1 else 0)),
        toByte ((if f = none then 128 else 0) + e.rounds)] ++ recordBytes r ++
      [toByte a, toByte ((f.getD 0).toNat / 256), toByte (f.getD 0).toNat] := by
  have hroles : bitOf e.source * 128 + bitOf e.sink * 64 + bitOf e.eligible * 32 = rolesOf e := by
    simp only [bitOf_mul, rolesOf]
  have hpresence : 1 * 16 + bitOf r.ready.isSome * 8 + bitOf r.shown.isSome * 4 = presenceOf r := by
    simp only [bitOf_isSome_mul, presenceOf]
  simp only [memberResponse, h, ho, Option.bind_some, Option.isSome_some, Option.map_some, Option.getD_some]
  rw [← hroles, ← hpresence, ← bitOf_isNone_mul]
  simp only [bitOf, frameOrZero, toPair, recordBytes]
  simp [Nat.add_assoc]

theorem memberResponse_length (e : MemberEntry) : (memberResponse e).length = 13 := rfl

/-- Slices of equal length, laid one after another, are found again. -/
theorem take_drop_flatMap {α β : Type} (f : α → List β) {n : Nat} (hf : ∀ a, (f a).length = n) (l : List α) :
    ∀ k (hk : k < l.length), ((l.flatMap f).drop (n * k)).take n = f l[k] := by
  induction l with
  | nil => exact fun k hk => absurd hk (Nat.not_lt_zero k)
  | cons a l ih =>
    intro k hk
    rw [List.flatMap_cons]
    cases k with
    | zero => rw [Nat.mul_zero, List.drop_zero, List.take_left' (hf a)]; rfl
    | succ k =>
      rw [Nat.mul_succ, Nat.add_comm, ← List.drop_drop, List.drop_left' (hf a)]
      exact ih k (Nat.lt_of_succ_lt_succ hk)

theorem length_flatMap_of_const {α β : Type} (f : α → List β) {n : Nat} (hf : ∀ a, (f a).length = n) (l : List α) :
    (l.flatMap f).length = n * l.length := by
  rw [List.length_flatMap, List.map_congr_left (fun a _ => hf a), List.map_const', List.sum_replicate, smul_eq_mul, Nat.mul_comm]

theorem member_eq_getElem {s : State} {k : Nat} (h : k < s.members.length) : s.member k = s.members[k] :=
  List.getD_eq_getElem _ _ h

/-- Settles O5: an entry's thirteen bytes, without a record, with one that has no offer, and with one that has. -/
theorem readMembersAnswers : Obligations.ReadMembersAnswers := by
  intro s hreset hidle hlength
  refine ⟨next_congr (answer_of_listens (portListens_iff.2 ⟨hreset, hidle⟩) _ _), ?_, fun k hk => ⟨?_, rfl, ?_, ?_, ?_⟩⟩
  · rw [membersResponse, length_flatMap_of_const _ memberResponse_length, hlength]
  · rw [member_eq_getElem (hlength ▸ hk)]
    exact take_drop_flatMap _ memberResponse_length _ _ _
  · intro h
    rw [memberResponse_of_unrecorded h]
    rfl
  · rintro ⟨settled, kind, ready, shown, offer⟩ h
    cases offer with
    | none => rw [memberResponse_of_unoffered h rfl]; rfl
    | some o => rw [memberResponse_of_offered (a := o.stream) (f := o.frame) (published := o.published) h rfl]; rfl
  · rintro roles rfl
    refine ⟨fun h => by rw [memberResponse_of_unrecorded h]; rfl, ?_⟩
    rintro r h presence rfl
    refine ⟨fun ho => ?_, fun a f published ho => ?_⟩
    · rw [memberResponse_of_unoffered h ho]
      exact ⟨rfl, rfl⟩
    · rw [memberResponse_of_offered h ho]
      exact ⟨rfl, rfl⟩

/-! ## Counters (R165, R175) -/

/-- Settles O6. -/
theorem countersAreReadAndCleared : Obligations.CountersAreReadAndCleared := by
  intro s hreset hidle
  have hlistens := portListens_iff.2 ⟨hreset, hidle⟩
  refine ⟨fun hlength => ⟨next_congr (answer_of_listens hlistens _ _), ?_, fun c => ?_⟩,
    next_congr (takeClearCounters_of_listens hlistens)⟩
  · rw [countersResponse, length_flatMap_of_const toPair (n := 2) (fun _ => rfl), hlength]
  · have hplace : c.place < s.port.counters.length := hlength ▸ c.place_lt
    rw [countersResponse, take_drop_flatMap toPair (n := 2) (fun _ => rfl) _ _ hplace, State.counter,
      List.getD_eq_getElem _ _ hplace]
    rfl

/-! ## READ EVENT (R167) -/

/-- Settles O7. -/
theorem readEventReportsOldest : Obligations.ReadEventReportsOldest := by
  intro s hreset hidle
  have hread : exec .readEvent s = .next (takeReadEvent s) := rfl
  rw [hread, takeReadEvent_of_listens (portListens_iff.2 ⟨hreset, hidle⟩), eventResponse]
  refine ⟨fun e rest h => ?_, fun h => ?_⟩
  · rw [h]
    rfl
  · rw [h]
    rfl

/-- Settles O8. -/
theorem portTakesCommandsAfterRelease : Obligations.PortTakesCommandsAfterRelease := by
  intro s
  refine ⟨fun c hdeaf hc => ?_, rfl, ⟨rfl, rfl, rfl, rfl, rfl⟩, fun code hcode => ?_, fun code hreset hidle hcode => ?_⟩
  · have hdeaf : portListens s = false := by
      rw [← Bool.not_eq_true, portListens_iff]
      rcases hdeaf with h | h <;> simp [h]
    have hbyte : ∀ code, takeCommandByte code s = s := takeCommandByte_of_deaf hdeaf
    rcases hc with hc | ⟨code, rfl⟩
    · simp only [List.mem_cons, List.not_mem_nil, or_false] at hc
      rcases hc with rfl | rfl | rfl | rfl | rfl <;> exact next_congr (hbyte _)
    · refine next_congr ?_
      unfold takeUnknown
      split
      · rfl
      · exact hbyte code
  · rw [← isCommandCode_iff, Bool.not_eq_true] at hcode
    refine next_congr ?_
    rw [takeUnknown_of_unknown hcode, takeCommandByte_of_unknown hcode]
  · rw [← isCommandCode_iff, Bool.not_eq_true] at hcode
    refine ⟨_, next_congr (takeUnknown_of_unknown hcode s), answer_of_listens (portListens_iff.2 ⟨hreset, hidle⟩) _ _, fun i => ?_⟩
    rw [answer_of_listens (portListens_iff.2 ⟨hreset, hidle⟩)]
    rfl

/-! ## The end of a transaction (R163, R167) -/

/-- Settles O9. -/
theorem transactionEndRemovesReported : Obligations.TransactionEndRemovesReported := by
  intro s
  refine ⟨fun h => ?_, fun response beyond h => ?_, fun response beyond n h => ?_, fun response beyond n h => ?_, rfl, ?_⟩
  · refine next_congr ?_
    rw [completeTransaction, h]
  · refine next_congr ?_
    rw [completeTransaction, h]
  · refine next_congr ?_
    rw [completeTransaction, h]
    simp
  · refine next_congr ?_
    rw [completeTransaction, h]
    simp
  · intro t u v ht hu hreset hidle hv
    have hlistens := portListens_iff.2 ⟨hreset, hidle⟩
    have ht := Host.Outcome.next.inj ht
    have hu := Host.Outcome.next.inj hu
    have hu' : u = s := by
      rw [← hu, ← ht, show takeCommandByte 0x05 s = takeReadEvent s from rfl, takeReadEvent_of_listens hlistens,
        State.setPort_setPort]
      show s.setPort { s.port with transaction := none } = s
      rw [← hidle]
      rfl
    rw [hu'] at hv
    exact (Host.Outcome.next.inj hv).symm.trans ht

/-- Settles O12. -/
theorem countersSaturateAndEventsAppend : Obligations.CountersSaturateAndEventsAppend := by
  refine ⟨fun s c d n h => counter_raise c d n s h, fun s k f d h => if_pos h, fun s k f d h => ?_, fun s => ?_⟩
  · exact if_neg (Nat.not_lt.2 h)
  · simp [State.alertLow]

end Sys2Proof.Machine
end

section
/-! What a command cannot do: move the settled frame back, write the front bank, or bring a station out of ISOLATED. -/

namespace Sys2Proof.Machine

/-! ## The settled frame (R63) -/

/-- From `s` to `t` the settled frame stays or moves 1 to 32767 ahead, with the open age at 0. -/
def FrameMoves (s t : State) : Prop :=
  t.settle.frame = s.settle.frame ∨
    (1 ≤ forward s.settle.frame t.settle.frame ∧ forward s.settle.frame t.settle.frame ≤ 32767 ∧ t.settle.openAge = 0)

theorem FrameMoves.of_settle {s t : State} (h : t.settle = s.settle) : FrameMoves s t := .inl (by rw [h])

/-- What stands before and after with the same settled frame, or the same settle unit, changes nothing. -/
theorem FrameMoves.congr {s s' t t' : State} (h : FrameMoves s t) (hs : s'.settle.frame = s.settle.frame)
    (ht : t'.settle = t.settle) : FrameMoves s' t' := by
  rw [FrameMoves, hs, ht]
  exact h

theorem forward_add_one (f : Frame) : forward f (f + 1) = 1 := by
  unfold forward
  bv_omega

theorem settleCommit_moves (s : State) : FrameMoves s (settleCommit s) := by
  refine .inr ?_
  rw [settleCommit_settle]
  exact ⟨(forward_add_one _).ge, (forward_add_one _).le.trans (by decide), rfl⟩

theorem settleAbandon_moves (path : SettlePath) (s : State) : FrameMoves s (settleAbandon path s) := by
  refine .inr ?_
  rw [settleAbandon_settle]
  exact ⟨(forward_add_one _).ge, (forward_add_one _).le.trans (by decide), rfl⟩

theorem resync_moves {s : State} {f : Frame} (hlow : 1 ≤ forward s.settle.frame f) (hhigh : forward s.settle.frame f ≤ 32767)
    (k : SettleKind) : FrameMoves s (resync f k s) := by
  refine .inr ?_
  rw [resync_settle]
  exact ⟨hlow, hhigh, rfl⟩

theorem takeAhead_moves (path : SettlePath) (f : Frame) (k : SettleKind) (s : State) :
    FrameMoves s (takeAhead path f k (compareFrame s.settle.frame f) s) := by
  rcases Nat.lt_or_ge 32767 (forward s.settle.frame f) with hbehind | hhigh
  · exact .of_settle (by rw [takeAhead_of_behind path k (by omega)])
  rcases Nat.lt_or_ge 1 (forward s.settle.frame f) with hfar | hnear
  · rw [takeAhead_of_farAhead path k hfar hhigh]
    exact resync_moves (by omega) hhigh k
  rcases Nat.eq_zero_or_pos (forward s.settle.frame f) with hsame | hone
  · exact .of_settle (by rw [takeAhead_of_same path k hsame])
  · have hone : forward s.settle.frame f = 1 := by omega
    refine .inr ?_
    rw [takeAhead_of_oneAhead_settle path k hone]
    exact ⟨(forward_add_one _).ge, (forward_add_one _).le.trans (by decide), rfl⟩

theorem takeMark_moves (sender : Nat) (m : MarkFields) (s : State) : FrameMoves s (takeMark sender m s) := by
  rcases Nat.lt_or_ge 32767 (forward s.settle.frame m.settled) with hbehind | hhigh
  · exact takeMark_of_behind sender m s hbehind ▸ .of_settle (post_settle _ _ _ s)
  · exact takeMark_eq_takeAhead sender m s hhigh ▸ takeAhead_moves _ _ _ s

theorem takeOwnMark_moves (m : MarkFields) (verdict : Bool) (s : State) : FrameMoves s (takeOwnMark m verdict s) := by
  unfold takeOwnMark
  split
  · split
    · exact settleCommit_moves s
    · exact settleAbandon_moves _ s
    · exact .inl rfl
  · exact .inl rfl

theorem takeContent_moves (c : RoundContent) (s : State) : FrameMoves s (takeContent c s) := by
  unfold takeContent
  split
  · exact .inl rfl
  · exact takeMark_moves _ _ s
  · exact takeOwnMark_moves _ _ s

theorem recordMark_frame (c : RoundContent) (s : State) : (recordMark c s).settle.frame = s.settle.frame := by
  cases c <;> rfl

theorem settleRoundStart_moves (c : RoundContent) (s : State) : FrameMoves s (settleRoundStart c s) := by
  unfold settleRoundStart
  split
  · exact (takeContent_moves c (raiseOpenAge s)).congr rfl rfl
  · exact .inl (recordMark_frame c s)

theorem settleTakeState_moves (k : Nat) (m : StateFields) (s : State) : FrameMoves s (settleTakeState k m s) := by
  unfold settleTakeState
  split
  · exact takeAhead_moves _ _ _ s
  · exact .inl rfl

/-- Of the arrivals of a round start only the settle unit's writes the settle unit. -/
theorem arrive_settle {c : RoundContent} {a : RoundArrival} (h : a ≠ .settle) (s : State) :
    (arrive c s a).settle = s.settle := by
  cases a with
  | number => rfl
  | ageing => exact tableRoundStart_writes s .settle (by decide)
  | silence => exact captureRoundStart_writes s .settle (by decide)
  | waits =>
    unfold arrive
    dsimp only
    split
    · exact requesterRoundStart_writes s .settle (by decide)
    · rfl
  | settle => exact absurd rfl h

/-- Arrivals one of which, taken at most once, may move the settled frame. -/
theorem foldl_moves {α : Type} (g : State → α → State) {a₀ : α} (hother : ∀ s a, a ≠ a₀ → (g s a).settle = s.settle)
    (hone : ∀ s, FrameMoves s (g s a₀)) (l : List α) (hl : l.Nodup) : ∀ s, FrameMoves s (l.foldl g s) := by
  have hrest : ∀ l : List α, a₀ ∉ l → ∀ s, (l.foldl g s).settle = s.settle := by
    intro l
    induction l with
    | nil => exact fun _ _ => rfl
    | cons a l ih =>
      intro h s
      rw [List.mem_cons, not_or] at h
      exact (ih h.2 _).trans (hother s a (Ne.symm h.1))
  induction l with
  | nil => exact fun _ => .inl rfl
  | cons a l ih =>
    intro s
    rw [List.nodup_cons] at hl
    by_cases h : a = a₀
    · subst h
      exact (hone s).congr rfl (hrest l hl.1 _)
    · exact (ih hl.2 (g s a)).congr (by rw [hother s a h]) rfl

theorem roundStart_moves {s : State} (hm : s.isMember = true) (c : RoundContent) (o : Orders) :
    FrameMoves s (roundStart c o s) := by
  have w := roundArrivals_writes c o s
  have harrivals : FrameMoves s (roundArrivals c o s) :=
    (foldl_moves (arrive c) (fun s _ h => arrive_settle h s) (settleRoundStart_moves c) _ (roundOrder_once o).1
      (restartMarkTimer s)).congr rfl rfl
  have hmember := isMember_iff.1 ((isMember_of_writes w (by decide)).trans hm)
  rw [roundStart_eq, if_neg]
  · exact harrivals
  · rw [isListen_iff, hmember]
    simp

theorem stateArrive_settle {k : Nat} {m : StateFields} {a : StateArrival} (h : a ≠ .catchUp) (s : State) :
    (stateArrive k m s a).settle = s.settle := by
  cases a with
  | record => exact tableTakeState_writes k m s .settle (by decide)
  | catchUp => exact absurd rfl h
  | published => exact requesterTakeState_writes k m s .settle (by decide)

theorem deliverMember_moves (b : Burst) (o : Orders) (s : State) : FrameMoves s (deliverMember b o s) := by
  unfold deliverMember
  split
  · exact .inl rfl
  · exact foldl_moves _ (fun s _ h => stateArrive_settle h s) (settleTakeState_moves _ _) _ (stateOrder_once o).1 s
  · exact .of_settle (takeSegment_writes _ s .settle (by decide))
  · exact .of_settle (takeRequest_writes _ _ s .settle (by decide))
  · split
    · exact .of_settle (takeStatus_writes _ _ s .settle (by decide))
    · exact .inl rfl

theorem deliver_moves {s : State} (hm : s.isMember = true) (j : Judgment) (o : Orders) : FrameMoves s (deliver j o s) := by
  unfold deliver
  split
  · rw [if_pos hm]
    exact deliverMember_moves _ o s
  · exact .inl rfl
  · exact .inl rfl
  · exact .inl rfl

theorem reportAndDeliver_moves {s : State} (hm : s.isMember = true) (p : Option SentItem) (j : Judgment) (o : Orders) :
    FrameMoves s (reportAndDeliver p j o s) := by
  have hreport : ∀ u, (reportPassed p u).settle = u.settle := fun u => reportPassed_writes p u .settle (by decide)
  unfold reportAndDeliver
  split
  · have hm' := (isMember_of_writes (reportPassed_writes p s) (by decide)).trans hm
    exact (deliver_moves hm' j o).congr (by rw [hreport]) rfl
  · exact (deliver_moves hm j o).congr rfl (hreport _)

theorem concludeBurst_moves {s : State} (hm : s.isMember = true) (h : Hearing) (p : Option SentItem) (j : Judgment)
    (o : Orders) : FrameMoves s (concludeBurst h p j o s) := by
  have w := countJudgment_writes j s
  have hm' := (isMember_of_writes w (by decide)).trans hm
  have hsettle : (countJudgment j s).settle = s.settle := w .settle (by decide)
  unfold concludeBurst
  dsimp only
  split
  · exact (roundStart_moves hm' _ o).congr (by rw [hsettle]) rfl
  · exact (reportAndDeliver_moves hm' p j o).congr (by rw [hsettle]) rfl

theorem endBurst_moves {s : State} (hm : s.isMember = true) (h : Hearing) (cut : Bool) (heard : List Byte) (o : Orders) :
    FrameMoves s (endBurst h cut heard o s) := by
  have hsettle : (settleReadback (ownReadback s heard) s).settle = s.settle := settleReadback_writes _ s .settle (by decide)
  unfold endBurst
  dsimp only
  split
  next => exact .of_settle hsettle
  next hi =>
    obtain ⟨hstation, -, -⟩ := (settleReadback_stays (ownReadback s heard) s).resolve_left hi
    have hm' : (settleReadback (ownReadback s heard) s).isMember = true := by rwa [State.isMember, hstation]
    exact (concludeBurst_moves hm' _ _ _ o).congr (by rw [hsettle]) rfl

theorem takeBurst_moves {s : State} (hm : s.isMember = true) (heard : List Byte) (o : Orders) :
    FrameMoves s (takeBurst heard o s) := by
  unfold takeBurst
  split
  · exact .inl rfl
  · rw [if_pos (onTheBus_of_member hm)]
    exact endBurst_moves hm _ _ _ o

theorem cutBurst_moves {s : State} (hm : s.isMember = true) (heard : List Byte) (o : Orders) :
    FrameMoves s (cutBurst heard o s) := by
  unfold cutBurst
  split
  · exact endBurst_moves hm _ _ _ o
  · exact .inl rfl

theorem takePositionEnd_moves {s : State} (hm : s.isMember = true) (heard : List Byte) (o : Orders) :
    FrameMoves s (takePositionEnd heard o s) := by
  have hcut := cutBurst_moves hm heard o
  unfold takePositionEnd endPosition
  rw [if_pos (onTheBus_of_member hm)]
  split
  · exact .inl rfl
  · dsimp only
    split
    · exact hcut
    · exact hcut.congr rfl (advancePosition_writes _ .settle (by decide))

theorem not_listen_of_member {s : State} (hm : s.isMember = true) : s.isListen = false := by
  rw [← Bool.not_eq_true, isListen_iff, isMember_iff.1 hm]
  simp

theorem expireMarkTimer_settle {s : State} (hm : s.isMember = true) : (expireMarkTimer s).settle = s.settle := by
  unfold expireMarkTimer
  rw [not_listen_of_member hm, if_neg Bool.false_ne_true, if_pos hm]
  split
  · rfl
  · exact expireMember_writes s .settle (by decide)

theorem ite_moves {c : Prop} [Decidable c] {s t : State} (h : FrameMoves s t) : FrameMoves s (if c then t else s) := by
  split
  · exact h
  · exact .inl rfl

theorem moves_of_next {s t u : State} (h : (Host.Outcome.next u : Host.Outcome State Fault Refusal) = .next t)
    (hu : FrameMoves s u) : FrameMoves s t := by
  rw [Host.Outcome.next.injEq] at h
  exact h ▸ hu

theorem settleDue_settle (due : SentItem → State → Bool) (heard : List Byte) (s : State) :
    (match faultComes s heard with
      | some item => if due item s then settleReadback (ownReadback s heard) s else s
      | none => s).settle = s.settle := by
  split
  · split
    · exact settleReadback_writes _ s .settle (by decide)
    · rfl
  · rfl

/-- Settles O58: a burst's end takes the settle unit's arrival, or the catch-up, once, and no other operation of a MEMBER writes
the settle unit. -/
theorem settledFrameMovesForward : Obligations.SettledFrameMovesForward := by
  intro c s t hm hreset h
  show FrameMoves s t
  have hloading : s.station.state ≠ .loading := by rw [isMember_iff.1 hm]; simp
  have burst : ∀ (b : Bool) (heard : List Byte) (o : Orders), FrameMoves s (if b then takeBurst heard o s else s) :=
    fun b heard o => ite_moves (takeBurst_moves hm heard o)
  cases hport : isPortCommand c with
  | true => exact .of_settle (portCommandsStayInPort c s t hport h .settle (by decide))
  | false =>
    cases c with
    | reset => exact absurd rfl hreset
    | configReadComplete image =>
      refine moves_of_next h ?_
      rw [if_neg (by simp [hloading])]
      exact .inl rfl
    | startUpClearComplete =>
      refine moves_of_next h ?_
      rw [if_neg (by simp [hloading])]
      exact .inl rfl
    | markTimerExpiry => exact moves_of_next h (.of_settle (expireMarkTimer_settle hm))
    | joinAlone =>
      refine moves_of_next h ?_
      rw [if_neg (by simp [not_listen_of_member hm])]
      exact .inl rfl
    | burstStart => exact moves_of_next h (.of_settle (takeBurstStart_writes s .settle (by decide)))
    | positionEnd heard o => exact moves_of_next h (takePositionEnd_moves hm heard o)
    | burstTaken heard o => exact moves_of_next h (takeBurst_moves hm heard o)
    | mediumFault heard => exact moves_of_next h (.of_settle (settleDue_settle mediumFaultDue heard s))
    | duplicateNumber heard => exact moves_of_next h (.of_settle (settleDue_settle collisionDue heard s))
    | memberAbsent heard o => exact moves_of_next h (burst _ heard o)
    | joinByCount heard o => exact moves_of_next h (burst _ heard o)
    | frameStart => exact moves_of_next h (.of_settle (takeFrameStart_writes s .settle (by decide)))
    | rowCompletion pixels => exact moves_of_next h (.of_settle (takeRow_writes pixels s .settle (by decide)))
    | inputLost heard o => exact moves_of_next h (burst _ heard o)
    | placementComplete => exact moves_of_next h (.of_settle (completePlacement_writes s .settle (by decide)))
    | bankClearComplete => exact moves_of_next h (.of_settle (endBankClear_writes s .settle (by decide)))
    | scanStart => exact moves_of_next h (ite_moves (.of_settle (scanStart_writes s .settle (by decide))))
    | scanEnd => exact moves_of_next h (.inl rfl)
    | backoffEnd heard o => exact moves_of_next h (burst _ heard o)
    | repairTimeout heard o => exact moves_of_next h (burst _ heard o)
    | resetRelease => exact moves_of_next h (.inl rfl)
    | _ => exact absurd hport (by simp [isPortCommand])

/-! ## The front bank (R121) -/

theorem named_front (c : BankControl) : c.named c.front = c.frontBank := by
  unfold BankControl.named BankControl.frontBank
  cases c.front <;> rfl

theorem FrontKept.named {s t : State} (h : FrontKept s t) : t.banks.named s.banks.front = s.banks.named s.banks.front := by
  obtain ⟨hfront, hbank⟩ := h
  rw [named_front, ← hbank, ← named_front, hfront]

/-- With no clear of the back bank in flight, reopening it writes no pixel. -/
theorem reopenBack_named {s : State} (h : s.banks.clear ≠ .clearingBack) (n : BankName) :
    (reopenBack s).banks.named n = s.banks.named n := by
  by_cases ho : s.coverage.openFor = some s.openFrame
  · rw [reopenBack_of_open ho, stopClear_of_not_clearing h]
    cases n <;> rfl
  · rw [reopenBack_of_not_open ho, stopClear_of_not_clearing h]
    cases n <;> rfl

/-- A pending swap waits for no clear, so it writes neither bank (R129, R132). -/
theorem scanStart_named {s : State} (p : PlacementHeldBack s) (n : BankName) :
    (scanStart s).banks.named n = s.banks.named n := by
  have hscan : (scanStart s).banks = (completeSwap s).banks := rfl
  rw [hscan]
  cases hswap : s.banks.swapPending with
  | none => rw [completeSwap_of_none hswap]
  | some f =>
    have hclear : s.banks.clear = .idle := (p.swapping (by rw [hswap]; simp)).1
    rw [completeSwap_of_pending hswap, reopenBack_named]
    · cases n <;> rfl
    · show s.banks.clear ≠ .clearingBack
      rw [hclear]
      simp

theorem endRead_front (bs : List Byte) (s : State) : FrontKept s (endRead bs s) := by
  unfold endRead
  split
  · exact .trans (.of_writes (setLoader_writes s _) (by decide)) (isolate_front _ _)
  · cases hsink : (parseImage bs).sinkRole with
    | true => exact acceptImage_of_sink hsink s ▸ ⟨rfl, rfl⟩
    | false => exact acceptImage_of_not_sink hsink s ▸ ⟨rfl, rfl⟩

/-- Settles O59. -/
theorem frontBankIsNotWritten : Obligations.FrontBankIsNotWritten := by
  intro c s t p hreset hclear h
  by_cases hread : ∃ image, c = .configReadComplete image
  · obtain ⟨image, rfl⟩ := hread
    rw [← Host.Outcome.next.inj h]
    split
    · exact (endRead_front image s).named
    · rfl
  by_cases hscan : c = .scanStart
  · subst hscan
    rw [← Host.Outcome.next.inj h]
    split
    · exact scanStart_named p _
    · rfl
  · exact (exec_works hreset (fun image hi => hread ⟨image, hi⟩) hclear hscan h).front.named

/-! ## What only RESET ends (R45, R53) -/

theorem exec_loader {c : Instr} {s t : State} (hreset : c ≠ .reset) (hreading : s.loader.reading = false)
    (h : exec c s = .next t) : t.loader = s.loader := by
  by_cases hread : ∃ image, c = .configReadComplete image
  · obtain ⟨image, rfl⟩ := hread
    rw [← Host.Outcome.next.inj h, if_neg (by simp [hreading])]
  · exact exec_writes hreset (fun image hi => hread ⟨image, hi⟩) h .loader (by decide)

/-- A station in ISOLATED is neither in LISTEN nor a MEMBER nor on the bus. -/
theorem isolated_stands {s : State} (h : s.station.state = .isolated) :
    s.isListen = false ∧ s.isMember = false ∧ s.onTheBus = false := by
  have hlisten : s.isListen = false := by simp [State.isListen, h]
  have hmember : s.isMember = false := by simp [State.isMember, h]
  exact ⟨hlisten, hmember, by simp [State.onTheBus, hlisten, hmember]⟩

theorem takeBurst_of_isolated {s : State} (h : s.station.state = .isolated) (heard : List Byte) (o : Orders) :
    takeBurst heard o s = s := by
  obtain ⟨hlisten, -, hbus⟩ := isolated_stands h
  cases hh : s.bus.hearing with
  | none => simp only [takeBurst, hh]
  | some v => simp only [takeBurst, hh, hbus, hlisten, Bool.false_eq_true, if_false]

theorem takePositionEnd_of_isolated {s : State} (h : s.station.state = .isolated) (heard : List Byte) (o : Orders) :
    takePositionEnd heard o s = s := by
  obtain ⟨hlisten, -, hbus⟩ := isolated_stands h
  unfold takePositionEnd
  rw [hbus, hlisten, if_neg Bool.false_ne_true, if_neg Bool.false_ne_true]

theorem expireMarkTimer_of_isolated {s : State} (h : s.station.state = .isolated) : expireMarkTimer s = s := by
  obtain ⟨hlisten, hmember, -⟩ := isolated_stands h
  unfold expireMarkTimer
  rw [hlisten, hmember, if_neg Bool.false_ne_true, if_neg Bool.false_ne_true, ite_self]

theorem faultComes_of_isolated {s : State} (h : s.station.state = .isolated) (heard : List Byte) : faultComes s heard = none := by
  cases hf : faultComes s heard with
  | none => rfl
  | some item => exact absurd ((isolated_stands h).2.1.symm.trans (member_of_faultComes hf)) (by simp)

/-- The commands whose meaning is to do nothing at a station in ISOLATED (R53). -/
theorem exec_of_isolated {c : Instr} {s : State} (h : s.station.state = .isolated) (p : PlacementHeldBack s)
    (hport : isPortCommand c = false) (hreset : c ≠ .reset) (hframe : c ≠ .frameStart) (hstart : c ≠ .scanStart)
    (hend : c ≠ .scanEnd) (hrelease : c ≠ .resetRelease) : exec c s = .next s := by
  obtain ⟨hlisten, hmember, -⟩ := isolated_stands h
  have hloading : ¬ (s.station.state == .loading) = true := by rw [h]; decide
  have hnot : ∀ (a b : Bool), ¬ (a = true) → ¬ ((a && b) = true) := fun a b ha hab => ha (Bool.and_eq_true _ _ ▸ hab).1
  have burst : ∀ (b : Bool) (heard : List Byte) (o : Orders), (if b then takeBurst heard o s else s) = s := by
    intro b heard o
    rw [takeBurst_of_isolated h, ite_self]
  obtain ⟨-, hidle, -⟩ := p.outsideMember (by rw [h]; simp)
  have hclear := p.clearing
  rw [h] at hclear
  cases c with
  | reset => exact absurd rfl hreset
  | frameStart => exact absurd rfl hframe
  | scanStart => exact absurd rfl hstart
  | scanEnd => exact absurd rfl hend
  | resetRelease => exact absurd rfl hrelease
  | configReadComplete image => exact next_congr (if_neg (hnot _ _ hloading))
  | startUpClearComplete => exact next_congr (if_neg (hnot _ _ hloading))
  | markTimerExpiry => exact next_congr (expireMarkTimer_of_isolated h)
  | joinAlone => exact next_congr (if_neg (hnot _ _ (hnot _ _ (by rw [hlisten]; simp))))
  | burstStart =>
    refine next_congr ?_
    unfold takeBurstStart
    rw [h]
  | positionEnd heard o => exact next_congr (takePositionEnd_of_isolated h heard o)
  | burstTaken heard o => exact next_congr (takeBurst_of_isolated h heard o)
  | mediumFault heard =>
    refine next_congr ?_
    rw [faultComes_of_isolated h]
  | duplicateNumber heard =>
    refine next_congr ?_
    rw [faultComes_of_isolated h]
  | memberAbsent heard o => exact next_congr (burst _ heard o)
  | joinByCount heard o => exact next_congr (burst _ heard o)
  | rowCompletion pixels =>
    refine next_congr ?_
    rw [takeRow, State.actsAsSource, hmember, Bool.false_and]
    rfl
  | inputLost heard o => exact next_congr (burst _ heard o)
  | placementComplete => exact next_congr (completePlacement_of_idle hidle)
  | bankClearComplete =>
    have hclear : s.banks.clear = .idle := hclear
    exact next_congr (endBankClear_of_not_clearing (by rw [hclear]; simp))
  | backoffEnd heard o => exact next_congr (burst _ heard o)
  | repairTimeout heard o => exact next_congr (burst _ heard o)
  | _ => exact absurd hport (by simp [isPortCommand])

/-- What a port command leaves of the port, whatever the station's state. -/
structure PortLeaves (c : Instr) (s t : State) : Prop where
  counters : c ≠ .clearCounters → t.port.counters = s.port.counters
  record : c ≠ .transactionComplete → t.port.events = s.port.events ∧ t.port.dropped = s.port.dropped
  cleared : c = .clearCounters → t.port.counters = s.port.counters ∨ t.port.counters = List.replicate 22 0
  completed : c = .transactionComplete →
    (t.port.events = s.port.events ∨ t.port.events = s.port.events.tail) ∧ t.port.dropped ≤ s.port.dropped

theorem PortLeaves.of_same {c : Instr} {s t : State} (hevents : t.port.events = s.port.events)
    (hdropped : t.port.dropped = s.port.dropped) (hcounters : t.port.counters = s.port.counters) : PortLeaves c s t :=
  ⟨fun _ => hcounters, fun _ => ⟨hevents, hdropped⟩, fun _ => .inl hcounters, fun _ => ⟨.inl hevents, hdropped.le⟩⟩

theorem answer_leaves (c : Instr) (response : List Byte) (beyond : Byte) (s : State) :
    PortLeaves c s (answer response beyond s) := by
  rw [answer_eq]
  exact .of_same rfl rfl rfl

theorem portCommand_leaves {c : Instr} {s t : State} (hport : isPortCommand c = true) (h : exec c s = .next t) :
    PortLeaves c s t := by
  cases c with
  | readSummary => exact Host.Outcome.next.inj h ▸ answer_leaves _ _ _ s
  | readMembers => exact Host.Outcome.next.inj h ▸ answer_leaves _ _ _ s
  | readCounters => exact Host.Outcome.next.inj h ▸ answer_leaves _ _ _ s
  | clearCounters =>
    have ht : t = takeClearCounters s := (Host.Outcome.next.inj h).symm
    rw [ht, takeClearCounters_eq]
    refine ⟨fun hc => absurd rfl hc, fun _ => ⟨rfl, rfl⟩, fun _ => ?_, fun hc => absurd hc (by simp)⟩
    rw [State.setPort_port]
    dsimp only
    split
    · exact .inr rfl
    · exact .inl rfl
  | readEvent =>
    have ht : t = takeReadEvent s := (Host.Outcome.next.inj h).symm
    rw [ht, takeReadEvent_eq]
    exact .of_same rfl rfl rfl
  | unknownCommand code =>
    have ht : t = takeUnknown code s := (Host.Outcome.next.inj h).symm
    rw [ht]
    cases hcode : isCommandCode code with
    | true =>
      rw [takeUnknown_of_code hcode]
      exact .of_same rfl rfl rfl
    | false =>
      rw [takeUnknown_of_unknown hcode]
      exact answer_leaves _ _ _ s
  | transactionComplete =>
    have ht : t = completeTransaction s := (Host.Outcome.next.inj h).symm
    rw [ht]
    unfold completeTransaction
    split
    · exact .of_same rfl rfl rfl
    split
    · exact .of_same rfl rfl rfl
    · refine ⟨fun _ => rfl, fun hc => absurd rfl hc, fun hc => absurd hc (by simp), fun _ => ⟨?_, Nat.sub_le _ _⟩⟩
      rw [State.setPort_port]
      dsimp only
      split
      · exact .inr List.drop_one
      · exact .inl rfl
  | transactionCutShort => exact Host.Outcome.next.inj h ▸ .of_same rfl rfl rfl
  | _ => exact absurd hport (by simp [isPortCommand])

theorem takeFrameStart_of_isolated {s : State} (h : s.station.state = .isolated) : takeFrameStart s = s ∨
    takeFrameStart s = s.setCapture { s.capture with disposition := .skipped, shapeFaultPosted := false } := by
  unfold takeFrameStart
  rw [h]
  split
  · exact .inr rfl
  · exact .inl rfl

/-- A step at a station in ISOLATED that writes neither the port nor the capture unit, but for the mark of the input frame. -/
theorem stays_isolated {s t : State} (w : OnlyWrites [.scan, .capture, .resetAsserted] s t)
    (hcapture : t.capture = { s.capture with
      disposition := t.capture.disposition, shapeFaultPosted := t.capture.shapeFaultPosted }) (c : Instr) :
    OnlyWrites [.scan, .port, .capture, .resetAsserted] s t ∧
      t.capture = { s.capture with
        disposition := t.capture.disposition, shapeFaultPosted := t.capture.shapeFaultPosted } ∧
      t.port = s.port ∧ PortLeaves c s t := by
  have hport : t.port = s.port := w .port (by decide)
  exact ⟨w.widen (by decide), hcapture, hport, .of_same (by rw [hport]) (by rw [hport]) (by rw [hport])⟩

/-- A command but RESET at a station in ISOLATED (R53). -/
theorem exec_isolated {c : Instr} {s t : State} (h : s.station.state = .isolated) (p : PlacementHeldBack s) (hreset : c ≠ .reset)
    (hport : isPortCommand c = false) (ht : exec c s = .next t) :
    OnlyWrites [.scan, .port, .capture, .resetAsserted] s t ∧
      t.capture = { s.capture with
        disposition := t.capture.disposition, shapeFaultPosted := t.capture.shapeFaultPosted } ∧
      t.port = s.port ∧ PortLeaves c s t := by
  by_cases hframe : c = .frameStart
  · subst hframe
    have ht : t = takeFrameStart s := (Host.Outcome.next.inj ht).symm
    rcases takeFrameStart_of_isolated h with heq | heq
    · rw [ht, heq]
      exact stays_isolated .refl rfl _
    · rw [ht, heq]
      exact stays_isolated ((setCapture_writes _ _).widen (by decide)) rfl _
  by_cases hstart : c = .scanStart
  · subst hstart
    have hswap := (p.outsideMember (by rw [h]; simp)).2.2
    have ht : t = if s.scan.timer.isSome then scanStart s else s := (Host.Outcome.next.inj ht).symm
    rw [ht, scanStart, completeSwap_of_none hswap]
    split
    · exact stays_isolated ((setScan_writes _ _).widen (by decide)) rfl _
    · exact stays_isolated .refl rfl _
  by_cases hend : c = .scanEnd
  · subst hend
    exact Host.Outcome.next.inj ht ▸ stays_isolated ((setScan_writes _ _).widen (by decide)) rfl _
  by_cases hrelease : c = .resetRelease
  · subst hrelease
    exact Host.Outcome.next.inj ht ▸ stays_isolated ((setResetAsserted_writes _ _).widen (by decide)) rfl _
  · rw [exec_of_isolated h p hport hreset hframe hstart hend hrelease] at ht
    exact Host.Outcome.next.inj ht ▸ stays_isolated .refl rfl _

/-- Settles O60. -/
theorem onlyResetReconfigures : Obligations.OnlyResetReconfigures := by
  intro c s t hreset h
  refine ⟨fun hreading => exec_loader hreset hreading h, fun hisolated p => ?_⟩
  cases hport : isPortCommand c with
  | true =>
    have w := portCommandsStayInPort c s t hport h
    have hcapture : t.capture = s.capture := w .capture (by decide)
    have hleaves := portCommand_leaves hport h
    exact ⟨w.widen (by decide), by rw [hcapture], fun hf => absurd hf (by simp), hleaves.counters, hleaves.record,
      hleaves.cleared, hleaves.completed⟩
  | false =>
    obtain ⟨w, hcapture, hsame, hleaves⟩ := exec_isolated hisolated p hreset hport h
    exact ⟨w, hcapture, fun _ => hsame, hleaves.counters, hleaves.record, hleaves.cleared, hleaves.completed⟩

end Sys2Proof.Machine
end

section
/-! The wall work ignores the status port: from states that differ in the port alone, every operation gives states that differ in
the port alone. -/

namespace Sys2Proof.Machine

/-- `t` differs from `s` in the port alone. -/
def Alike (s t : State) : Prop := ∃ q, t = s.setPort q

namespace Alike

variable {s t u v : State}

theorem refl : Alike s s := ⟨s.port, rfl⟩

theorem setPort (p : StatusPort) : Alike s (s.setPort p) := ⟨p, rfl⟩

/-- Both write the port alone. -/
theorem of_port (h : Alike s t) (wu : OnlyWrites [.port] s u) (wv : OnlyWrites [.port] t v) : Alike u v := by
  obtain ⟨p, rfl⟩ := h
  exact ⟨v.port, by rw [eq_setPort_of_writes wv, eq_setPort_of_writes wu]; rfl⟩

/-- An update that neither reads nor writes the port. -/
theorem map (h : Alike s t) (g : State → State) (hg : ∀ s p, g (s.setPort p) = (g s).setPort p) : Alike (g s) (g t) := by
  obtain ⟨p, rfl⟩ := h
  exact ⟨p, hg s p⟩

/-- A choice by a condition that does not read the port. -/
theorem ite {c d : Prop} [Decidable c] [Decidable d] {s' t' : State} (hcd : d ↔ c) (ht : c → Alike s t)
    (hf : ¬ c → Alike s' t') : Alike (if c then s else s') (if d then t else t') := by
  by_cases hc : c
  · rw [if_pos hc, if_pos (hcd.2 hc)]
    exact ht hc
  · rw [if_neg hc, if_neg fun hd => hc (hcd.1 hd)]
    exact hf hc

theorem foldl {α : Type} {g : State → α → State} (hg : ∀ a, ∀ {s t}, Alike s t → Alike (g s a) (g t a)) (l : List α) :
    ∀ {s t}, Alike s t → Alike (l.foldl g s) (l.foldl g t) := by
  induction l with
  | nil => exact fun h => h
  | cons a l ih => exact fun h => ih (hg a h)

end Alike

section
variable {s t : State}

/-! ## The port's own operations -/

theorem raise_alike (c : Counter) (n : Nat) (h : Alike s t) : Alike (raise c n s) (raise c n t) :=
  h.of_port (raise_writes c n s) (raise_writes c n t)

theorem post_alike (k : EventKind) (f : Frame) (d : Byte) (h : Alike s t) : Alike (post k f d s) (post k f d t) :=
  h.of_port (post_writes k f d s) (post_writes k f d t)

theorem countJudgment_alike (j : Judgment) (h : Alike s t) : Alike (countJudgment j s) (countJudgment j t) :=
  h.of_port (countJudgment_writes j s) (countJudgment_writes j t)

theorem straggle_alike (f : Frame) (d : Byte) (h : Alike s t) : Alike (straggle f d s) (straggle f d t) :=
  h.of_port (straggle_writes f d s) (straggle_writes f d t)

/-! ## The repair requester -/

theorem changeEntry_alike (tag : Nat) (f : RepairEntry → RepairEntry) (h : Alike s t) :
    Alike (changeEntry tag f s) (changeEntry tag f t) := h.map _ fun _ _ => rfl

theorem overtakeEntries_alike (h : Alike s t) : Alike (overtakeEntries s) (overtakeEntries t) := h.map _ fun _ _ => rfl

theorem composeFor_alike (k : Nat) (h : Alike s t) : Alike (composeFor s k) (composeFor t k) := by
  obtain ⟨p, rfl⟩ := h
  exact .ite Iff.rfl (fun _ => ⟨p, rfl⟩) fun _ => ⟨p, rfl⟩

theorem gapScan_alike (h : Alike s t) : Alike (gapScan s) (gapScan t) := by
  obtain ⟨p, rfl⟩ := h
  exact .foldl (fun k _ _ h => composeFor_alike k h) s.image.contributing ⟨p, rfl⟩

theorem markPublished_alike (k : Nat) (h : Alike s t) : Alike (markPublished k s) (markPublished k t) :=
  gapScan_alike (h.map (fun s => s.setRequester { s.requester with published := s.requester.published.set k true })
    fun _ _ => rfl)

theorem closeEntry_alike (code : ConditionCode) (e : RepairEntry) (h : Alike s t) :
    Alike (closeEntry code e s) (closeEntry code e t) := by
  have hmark : Alike
      (if code.marksUnrepairable then
        s.setRequester { s.requester with unrepairable := s.requester.unrepairable.set e.stream true } else s)
      (if code.marksUnrepairable then
        t.setRequester { t.requester with unrepairable := t.requester.unrepairable.set e.stream true } else t) :=
    .ite Iff.rfl (fun _ => h.map (fun s => s.setRequester
      { s.requester with unrepairable := s.requester.unrepairable.set e.stream true }) fun _ _ => rfl) fun _ => h
  have hpost := hmark.of_port (postFailure_writes code e _) (postFailure_writes code e _)
  exact gapScan_alike (hpost.map (fun s => setEntries (s.requester.entries.filter (fun x => x.tag != e.tag)) s) fun _ _ => rfl)

theorem requestPassed_alike (tag : Nat) (h : Alike s t) : Alike (requestPassed tag s) (requestPassed tag t) :=
  raise_alike _ _ (changeEntry_alike _ _ h)

theorem takeClaim_alike (k row : Nat) (h : Alike s t) : Alike (takeClaim k row s) (takeClaim k row t) := by
  obtain ⟨p, rfl⟩ := h
  unfold takeClaim
  rw [show entryOfStream (s.setPort p) k = entryOfStream s k from rfl]
  split
  · exact ⟨p, rfl⟩
  · refine .ite Iff.rfl (fun _ => ?_) fun _ => ⟨p, rfl⟩
    split
    · exact closeEntry_alike _ _ ⟨p, rfl⟩
    · exact closeEntry_alike _ _ ⟨p, rfl⟩
    · exact ⟨p, rfl⟩

theorem takeRepairMark_alike (m : RepairMark) (h : Alike s t) : Alike (takeRepairMark m s) (takeRepairMark m t) := by
  obtain ⟨p, rfl⟩ := h
  exact .ite Iff.rfl (fun _ => changeEntry_alike _ _ ⟨p, rfl⟩) fun _ => ⟨p, rfl⟩

theorem takeRefusal_alike (e : RepairEntry) (h : Alike s t) : Alike (takeRefusal e s) (takeRefusal e t) := by
  obtain ⟨p, rfl⟩ := h
  refine .ite Iff.rfl (fun _ => .ite Iff.rfl (fun _ => ?_) fun _ => ?_) fun _ => ⟨p, rfl⟩
  · exact changeEntry_alike _ _ ⟨p, rfl⟩
  · exact closeEntry_alike _ _ ⟨p, rfl⟩

theorem takeStatus_alike (k : Nat) (m : StatusFields) (h : Alike s t) : Alike (takeStatus k m s) (takeStatus k m t) := by
  obtain ⟨p, rfl⟩ := h
  refine .ite Iff.rfl (fun _ => ⟨p, rfl⟩) fun _ => ?_
  rw [State.setPort_requester, show statusMatches (s.setPort p) k m = statusMatches s k m from rfl]
  split
  · exact raise_alike _ _ ⟨p, rfl⟩
  · split
    · exact closeEntry_alike _ _ ⟨p, rfl⟩
    · exact closeEntry_alike _ _ ⟨p, rfl⟩
    · exact closeEntry_alike _ _ ⟨p, rfl⟩
    · exact closeEntry_alike _ _ ⟨p, rfl⟩
    · exact takeRefusal_alike _ ⟨p, rfl⟩

theorem requesterTakeState_alike (k : Nat) (m : StateFields) (h : Alike s t) :
    Alike (requesterTakeState k m s) (requesterTakeState k m t) := by
  obtain ⟨p, rfl⟩ := h
  refine .ite Iff.rfl (fun _ => ?_) fun _ => ⟨p, rfl⟩
  rw [show declaresPublished (s.setPort p) k m = declaresPublished s k m from rfl]
  split
  · exact markPublished_alike _ ⟨p, rfl⟩
  · exact ⟨p, rfl⟩

theorem ageEntry_alike (e : RepairEntry) (h : Alike s t) : Alike (ageEntry e s) (ageEntry e t) := by
  have hchange : ∀ f, Alike (changeEntry e.tag f s) (changeEntry e.tag f t) := fun f => changeEntry_alike _ f h
  refine .ite Iff.rfl (fun _ => h) fun _ => .ite Iff.rfl (fun _ => ?_) fun _ => ?_
  · exact .ite Iff.rfl (fun _ => hchange _) fun _ => hchange _
  · exact .ite Iff.rfl (fun _ => .ite Iff.rfl (fun _ => hchange _) fun _ => closeEntry_alike _ _ h) fun _ => hchange _

theorem requesterRoundStart_alike (h : Alike s t) : Alike (requesterRoundStart s) (requesterRoundStart t) := by
  obtain ⟨p, rfl⟩ := h
  exact .foldl (fun e _ _ h => ageEntry_alike e h) s.requester.entries ⟨p, rfl⟩

/-! ## The capture unit -/

theorem ownPublished_alike (h : Alike s t) : Alike (ownPublished s) (ownPublished t) := by
  obtain ⟨p, rfl⟩ := h
  exact .ite Iff.rfl (fun _ => markPublished_alike (ownStreamId s) ⟨p, rfl⟩) fun _ => gapScan_alike ⟨p, rfl⟩

theorem checkPublished_alike (h : Alike s t) : Alike (checkPublished s) (checkPublished t) := by
  obtain ⟨p, rfl⟩ := h
  exact .ite Iff.rfl (fun _ => .ite Iff.rfl (fun _ => ownPublished_alike ⟨p, rfl⟩) fun _ => ⟨p, rfl⟩) fun _ => ⟨p, rfl⟩

theorem offerRow_alike (l : List Piece) (h : Alike s t) : Alike (offerRow l s) (offerRow l t) := by
  obtain ⟨p, rfl⟩ := h
  exact .ite Iff.rfl (fun _ => ⟨p, rfl⟩) fun _ => raise_alike _ _ ⟨p, rfl⟩

theorem produceRow_alike (l : List Piece) (h : Alike s t) : Alike (produceRow l s) (produceRow l t) :=
  (offerRow_alike l (h.map (fun s => s.setRing (l.foldl enterRing s.ring)) fun _ _ => rfl)).map advanceRow fun _ _ => rfl

theorem produceFillRow_alike (h : Alike s t) : Alike (produceFillRow s) (produceFillRow t) := by
  obtain ⟨p, rfl⟩ := h
  exact raise_alike _ (ownEntry s).pieces (produceRow_alike (rowPieces s true []) ⟨p, rfl⟩)

theorem produceFillRows_alike (n : Nat) : ∀ {s t}, Alike s t → Alike (produceFillRows n s) (produceFillRows n t) := by
  induction n with
  | zero => exact fun h => h
  | succ n ih => exact fun h => ih (produceFillRow_alike h)

theorem endCaptureWithFill_alike (h : Alike s t) : Alike (endCaptureWithFill s) (endCaptureWithFill t) := by
  obtain ⟨p, rfl⟩ := h
  exact (produceFillRows_alike ((ownEntry s).height - s.capture.rowCount) ⟨p, rfl⟩).map (setCaptureState .holding)
    fun _ _ => rfl

theorem postShapeFault_alike (d : Byte) (h : Alike s t) : Alike (postShapeFault d s) (postShapeFault d t) := by
  obtain ⟨p, rfl⟩ := h
  refine .ite Iff.rfl (fun _ => ⟨p, rfl⟩) fun _ => ?_
  exact (post_alike .shapeFault (shapeFaultFrame s) d ⟨p, rfl⟩).map
    (fun s => s.setCapture { s.capture with shapeFaultPosted := true }) fun _ _ => rfl

theorem inputFrameStart_alike (h : Alike s t) : Alike (inputFrameStart s) (inputFrameStart t) := by
  obtain ⟨p, rfl⟩ := h
  exact .ite Iff.rfl (fun _ => post_alike .inputLive s.openFrame 0 ⟨p, rfl⟩) fun _ => ⟨p, rfl⟩

theorem skipInputFrame_alike (h : Alike s t) : Alike (skipInputFrame s) (skipInputFrame t) :=
  raise_alike _ _ (h.map (fun s => s.setCapture { s.capture with disposition := .skipped }) fun _ _ => rfl)

theorem captureFrameStart_alike (h : Alike s t) : Alike (captureFrameStart s) (captureFrameStart t) := by
  obtain ⟨p, rfl⟩ := h
  unfold captureFrameStart
  rw [State.setPort_capture]
  split
  · exact ⟨p, rfl⟩
  · exact checkPublished_alike (skipInputFrame_alike (endCaptureWithFill_alike (postShapeFault_alike 4 ⟨p, rfl⟩)))
  · exact skipInputFrame_alike ⟨p, rfl⟩
  · exact skipInputFrame_alike ⟨p, rfl⟩

theorem newInputFrame_alike (h : Alike s t) : Alike (newInputFrame s) (newInputFrame t) := h.map _ fun _ _ => rfl

theorem takeFrameStart_alike (h : Alike s t) : Alike (takeFrameStart s) (takeFrameStart t) := by
  obtain ⟨p, rfl⟩ := h
  refine .ite Iff.rfl (fun _ => ?_) fun _ => ⟨p, rfl⟩
  rw [State.setPort_station]
  split
  · exact ⟨p, rfl⟩
  · exact newInputFrame_alike (inputFrameStart_alike ⟨p, rfl⟩)
  · exact newInputFrame_alike (captureFrameStart_alike (inputFrameStart_alike ⟨p, rfl⟩))
  · exact newInputFrame_alike ⟨p, rfl⟩

theorem captureRow_alike (pixels : List Pixel) (h : Alike s t) : Alike (captureRow pixels s) (captureRow pixels t) := by
  obtain ⟨p, rfl⟩ := h
  have hfault : Alike
      (if pixels.length < (ownEntry s).width then postShapeFault 1 s
        else if (ownEntry s).width < pixels.length then postShapeFault 2 s else s)
      (if pixels.length < (ownEntry s).width then postShapeFault 1 (s.setPort p)
        else if (ownEntry s).width < pixels.length then postShapeFault 2 (s.setPort p) else s.setPort p) :=
    .ite Iff.rfl (fun _ => postShapeFault_alike 1 ⟨p, rfl⟩) fun _ =>
      .ite Iff.rfl (fun _ => postShapeFault_alike 2 ⟨p, rfl⟩) fun _ => ⟨p, rfl⟩
  obtain ⟨q, hq⟩ := hfault
  unfold captureRow
  dsimp only
  rw [show ownEntry (s.setPort p) = ownEntry s from rfl, hq]
  exact checkPublished_alike (produceRow_alike _ ⟨q, rfl⟩)

/-- A row completion of a capture in progress ends the silence of the input (R85). -/
def endSilence (s : State) : State :=
  if s.capture.state = .capturing then s.setCapture { s.capture with silence := 0 } else s

/-- A row of the input frame by its disposition and the capture state (R90, R91). -/
def dispatchRow (pixels : List Pixel) (s : State) : State :=
  match s.capture.disposition with
  | .skipped => s
  | .taken =>
    match s.capture.state with
    | .capturing => captureRow pixels s
    | .holding => postShapeFault 3 s
    | .waiting => s
    | .dormant => s

theorem memberRow_eq (pixels : List Pixel) (s : State) : memberRow pixels s = dispatchRow pixels (endSilence s) := rfl

theorem dispatchRow_alike (pixels : List Pixel) (h : Alike s t) : Alike (dispatchRow pixels s) (dispatchRow pixels t) := by
  obtain ⟨p, rfl⟩ := h
  unfold dispatchRow
  rw [State.setPort_capture]
  split
  · exact ⟨p, rfl⟩
  · split
    · exact captureRow_alike pixels ⟨p, rfl⟩
    · exact postShapeFault_alike 3 ⟨p, rfl⟩
    · exact ⟨p, rfl⟩
    · exact ⟨p, rfl⟩

theorem memberRow_alike (pixels : List Pixel) (h : Alike s t) : Alike (memberRow pixels s) (memberRow pixels t) := by
  obtain ⟨p, rfl⟩ := h
  rw [memberRow_eq, memberRow_eq]
  exact dispatchRow_alike pixels (.ite Iff.rfl (fun _ => ⟨p, rfl⟩) fun _ => ⟨p, rfl⟩)

theorem takeRow_alike (pixels : List Pixel) (h : Alike s t) : Alike (takeRow pixels s) (takeRow pixels t) := by
  obtain ⟨p, rfl⟩ := h
  exact .ite Iff.rfl (fun _ => memberRow_alike pixels ⟨p, rfl⟩) fun _ => ⟨p, rfl⟩

theorem loseInput_alike (h : Alike s t) : Alike (loseInput s) (loseInput t) := by
  obtain ⟨p, rfl⟩ := h
  refine .ite Iff.rfl (fun _ => ?_) fun _ => post_alike .inputLost s.openFrame 0 ⟨p, rfl⟩
  have hfilled : Alike (endCaptureWithFill (s.setCapture { s.capture with input := .lost }))
      (endCaptureWithFill ((s.setPort p).setCapture { s.capture with input := .lost })) := endCaptureWithFill_alike ⟨p, rfl⟩
  obtain ⟨q, hq⟩ := hfilled
  rw [show endCaptureWithFill ((s.setPort p).setCapture { (s.setPort p).capture with input := .lost }) = _ from hq]
  refine checkPublished_alike ?_
  exact post_alike .inputLost _ 1 ⟨q, rfl⟩

theorem captureRoundStart_alike (h : Alike s t) : Alike (captureRoundStart s) (captureRoundStart t) := by
  obtain ⟨p, rfl⟩ := h
  refine .ite Iff.rfl (fun _ => ?_) fun _ => ⟨p, rfl⟩
  exact .ite Iff.rfl (fun _ => loseInput_alike ⟨p, rfl⟩) fun _ => ⟨p, rfl⟩

theorem cutCapture_alike (h : Alike s t) : Alike (cutCapture s) (cutCapture t) := by
  obtain ⟨p, rfl⟩ := h
  exact .ite Iff.rfl (fun _ => ⟨p, rfl⟩) fun _ => ⟨p, rfl⟩

theorem lockOffer_alike (h : Alike s t) : Alike (lockOffer s) (lockOffer t) := by
  have hcut := cutCapture_alike h
  obtain ⟨p, rfl⟩ := h
  obtain ⟨q, hq⟩ := hcut
  refine .ite Iff.rfl (fun _ => ?_) fun _ => ⟨p, rfl⟩
  rw [hq]
  exact ⟨q, rfl⟩

theorem isolateCapture_alike (h : Alike s t) : Alike (isolateCapture s) (isolateCapture t) := by
  obtain ⟨q, hq⟩ := cutCapture_alike h
  unfold isolateCapture
  rw [hq]
  exact ⟨q, rfl⟩

theorem freshPassed_alike (h : Alike s t) : Alike (freshPassed s) (freshPassed t) :=
  checkPublished_alike (h.map (fun s => s.setPublishQueue (s.publishQueue.drop 1)) fun _ _ => rfl)

/-! ## The sink's banks -/

theorem tryPlace_alike (h : Alike s t) : Alike (tryPlace s) (tryPlace t) := by
  obtain ⟨p, rfl⟩ := h
  exact .ite Iff.rfl (fun _ => ⟨p, rfl⟩) fun _ => ⟨p, rfl⟩

theorem completePlacement_alike (h : Alike s t) : Alike (completePlacement s) (completePlacement t) := by
  obtain ⟨p, rfl⟩ := h
  unfold completePlacement
  rw [State.setPort_engine, State.setPort_landing]
  split
  · exact tryPlace_alike ⟨p, rfl⟩
  · exact ⟨p, rfl⟩

theorem stopPlacement_alike (h : Alike s t) : Alike (stopPlacement s) (stopPlacement t) := by
  obtain ⟨p, rfl⟩ := h
  unfold stopPlacement
  rw [State.setPort_engine, State.setPort_landing]
  split
  · exact ⟨p, rfl⟩
  · exact ⟨p, rfl⟩

theorem discardLanding_alike (h : Alike s t) : Alike (discardLanding s) (discardLanding t) :=
  (stopPlacement_alike h).map (fun s => s.setLanding []) fun _ _ => rfl

theorem stopClear_alike (h : Alike s t) : Alike (stopClear s) (stopClear t) := by
  obtain ⟨p, rfl⟩ := h
  unfold stopClear
  rw [State.setPort_banks]
  split
  · exact ⟨p, rfl⟩
  · exact ⟨p, rfl⟩
  · exact ⟨p, rfl⟩

theorem reopenBack_alike (h : Alike s t) : Alike (reopenBack s) (reopenBack t) := by
  obtain ⟨q, hq⟩ := stopClear_alike h
  unfold reopenBack
  rw [hq]
  exact .ite Iff.rfl (fun _ => ⟨q, rfl⟩) fun _ => ⟨q, rfl⟩

theorem noticeAtOnce_alike (a : Action) (f : Frame) (complete : Bool) (h : Alike s t) :
    Alike (noticeAtOnce a f complete s) (noticeAtOnce a f complete t) := by
  unfold noticeAtOnce
  split
  · refine .ite Iff.rfl (fun _ => ?_) fun _ => reopenBack_alike (straggle_alike f 0 h)
    exact h.map (fun s => openCoverage s.openFrame (s.setBanks { s.banks with swapPending := some f })) fun _ _ => rfl
  · exact reopenBack_alike h
  · exact reopenBack_alike h
  · exact h.map openBackAtJoin fun _ _ => rfl

theorem noticeBehindSwap_alike (a : Action) (f : Frame) (h : Alike s t) :
    Alike (noticeBehindSwap a f s) (noticeBehindSwap a f t) := by
  have hstraggle := straggle_alike f 1 h
  obtain ⟨p, rfl⟩ := h
  unfold noticeBehindSwap
  rw [show (s.setPort p).openFrame = s.openFrame from rfl]
  refine Alike.map (?_ : Alike _ _) (openCoverage s.openFrame) fun _ _ => rfl
  split
  · exact hstraggle
  · exact ⟨p, rfl⟩
  · exact ⟨p, rfl⟩
  · exact ⟨p, rfl⟩

theorem bankNotice_alike (a : Action) (f : Frame) (complete : Bool) (h : Alike s t) :
    Alike (bankNotice a f complete s) (bankNotice a f complete t) := by
  obtain ⟨p, rfl⟩ := h
  unfold bankNotice
  rw [State.setPort_banks]
  split
  · exact noticeAtOnce_alike _ _ _ ⟨p, rfl⟩
  · exact noticeBehindSwap_alike _ _ ⟨p, rfl⟩

theorem isolateBanks_alike (h : Alike s t) : Alike (isolateBanks s) (isolateBanks t) :=
  (stopClear_alike h).map (fun s => s.setBanks { s.banks with swapPending := none }) fun _ _ => rfl

theorem completeSwap_alike (h : Alike s t) : Alike (completeSwap s) (completeSwap t) := by
  obtain ⟨p, rfl⟩ := h
  unfold completeSwap
  rw [State.setPort_banks]
  split
  · exact ⟨p, rfl⟩
  · exact reopenBack_alike (raise_alike _ _ ⟨p, rfl⟩)

theorem scanStart_alike (h : Alike s t) : Alike (scanStart s) (scanStart t) :=
  (completeSwap_alike h).map
    (fun s => s.setScan { s.scan with timer := some s.image.scanPeriod, position := .row 0 }) fun _ _ => rfl

theorem endStartUpClear_alike (h : Alike s t) : Alike (endStartUpClear s) (endStartUpClear t) :=
  (scanStart_alike (h.map clearedBanks fun _ _ => rfl)).map
    (fun s => s.setScan { s.scan with poblHigh := false }) fun _ _ => rfl

theorem endBankClear_alike (h : Alike s t) : Alike (endBankClear s) (endBankClear t) := by
  obtain ⟨p, rfl⟩ := h
  unfold endBankClear
  rw [State.setPort_banks]
  split
  · exact tryPlace_alike ⟨p, rfl⟩
  · exact ⟨p, rfl⟩
  · exact ⟨p, rfl⟩

/-! ## The repair responder -/

theorem offerReply_alike (m : StatusFields) (h : Alike s t) : Alike (offerReply m s) (offerReply m t) := by
  obtain ⟨p, rfl⟩ := h
  exact .ite Iff.rfl (fun _ => ⟨p, rfl⟩) fun _ => raise_alike _ _ ⟨p, rfl⟩

theorem afterWalk_alike (r : QueuedRequest) (rest : List QueuedRequest) {next : State → State}
    (hnext : ∀ {s t}, Alike s t → Alike (next s) (next t)) (h : Alike s t) (e : WalkEnd) :
    Alike (afterWalk r rest next s e) (afterWalk r rest next t e) := by
  cases e with
  | found c e gone =>
    obtain ⟨p, rfl⟩ := h
    exact ⟨p, rfl⟩
  | exhausted gone => exact hnext (offerReply_alike _ h)

theorem serve_alike (l : List QueuedRequest) : ∀ {s t}, Alike s t → Alike (serve l s) (serve l t) := by
  induction l with
  | nil => exact fun h => h.map (serve []) fun _ _ => rfl
  | cons r rest ih =>
    intro s t h
    have hwalk := fun e => afterWalk_alike r rest ih h e
    obtain ⟨p, rfl⟩ := h
    exact hwalk (walk s.ring (requestPieces (ownEntry s) r.fields) r.gone)

theorem slotPassed_alike (h : Alike s t) : Alike (slotPassed s) (slotPassed t) := by
  obtain ⟨p, rfl⟩ := h
  cases hq : s.responder.queue with
  | nil =>
    rw [slotPassed_of_nil hq, slotPassed_of_nil (s := s.setPort p) hq]
    exact ⟨p, rfl⟩
  | cons r rest =>
    cases hc : s.responder.cursor with
    | none =>
      rw [slotPassed_of_none hc, slotPassed_of_none (s := s.setPort p) hc]
      exact ⟨p, rfl⟩
    | some c =>
      rw [slotPassed_eq hq hc, slotPassed_eq (s := s.setPort p) hq hc]
      refine afterWalk_alike _ _ (serve_alike rest) ?_ (walk s.ring (piecesAfter c (requestPieces (ownEntry s) r.fields)) r.gone)
      exact (raise_alike .repairSegmentsSent 1 ⟨p, rfl⟩).map (fun u => u.setResponder { s.responder with slot := none })
        fun _ _ => rfl

theorem statusPassed_alike (h : Alike s t) : Alike (statusPassed s) (statusPassed t) := h.map _ fun _ _ => rfl

theorem acceptRequest_alike (k : Nat) (q : RequestFields) (h : Alike s t) : Alike (acceptRequest k q s) (acceptRequest k q t) := by
  obtain ⟨p, rfl⟩ := h
  by_cases hq : s.responder.queue = []
  · rw [acceptRequest_of_nil hq, acceptRequest_of_nil (s := s.setPort p) hq]
    exact serve_alike _ ⟨p, rfl⟩
  · rw [acceptRequest_of_ne_nil hq, acceptRequest_of_ne_nil (s := s.setPort p) hq]
    exact ⟨p, rfl⟩

theorem testRequest_alike (k : Nat) (q : RequestFields) (h : Alike s t) : Alike (testRequest k q s) (testRequest k q t) := by
  have hreply := fun o => offerReply_alike (immediateStatus k q o) h
  have haccept := acceptRequest_alike k q h
  obtain ⟨p, rfl⟩ := h
  refine .ite Iff.rfl (fun _ => raise_alike _ _ ⟨p, rfl⟩) fun _ => .ite Iff.rfl (fun _ => hreply _) fun _ => ?_
  refine .ite Iff.rfl (fun _ => hreply _) fun _ => .ite Iff.rfl (fun _ => ⟨p, rfl⟩) fun _ => ?_
  exact .ite Iff.rfl (fun _ => raise_alike _ _ (hreply _)) fun _ => haccept

theorem takeRequest_alike (k : Nat) (q : RequestFields) (h : Alike s t) : Alike (takeRequest k q s) (takeRequest k q t) := by
  have htest := testRequest_alike k q h
  obtain ⟨p, rfl⟩ := h
  exact .ite Iff.rfl (fun _ => htest) fun _ => ⟨p, rfl⟩

/-! ## The membership table -/

theorem tableTakeState_alike (k : Nat) (m : StateFields) (h : Alike s t) : Alike (tableTakeState k m s) (tableTakeState k m t) := by
  obtain ⟨p, rfl⟩ := h
  refine .ite Iff.rfl (fun _ => ⟨p, rfl⟩) fun _ => .ite Iff.rfl (fun _ => ?_) fun _ => ?_
  · exact .ite Iff.rfl (fun _ => ⟨p, rfl⟩) fun _ => post_alike .memberPresent s.settle.frame _ ⟨p, rfl⟩
  · exact .ite Iff.rfl (fun _ => ⟨p, rfl⟩) fun _ => post_alike .foreign s.settle.frame _ ⟨p, rfl⟩

theorem ageMember_alike (k : Nat) (h : Alike s t) : Alike (ageMember s k) (ageMember t k) := by
  obtain ⟨p, rfl⟩ := h
  exact .ite Iff.rfl (fun _ => post_alike .memberAbsent s.settle.frame _ ⟨p, rfl⟩) fun _ => ⟨p, rfl⟩

theorem tableRoundStart_alike (h : Alike s t) : Alike (tableRoundStart s) (tableRoundStart t) :=
  .foldl (fun k _ _ h => ageMember_alike k h) _ h

theorem forgetMember_alike (k : Nat) (h : Alike s t) : Alike (forgetMember s k) (forgetMember t k) := by
  obtain ⟨p, rfl⟩ := h
  exact .ite Iff.rfl (fun _ => post_alike .memberAbsent s.settle.frame _ ⟨p, rfl⟩) fun _ => ⟨p, rfl⟩

theorem forgetMembers_alike (h : Alike s t) : Alike (forgetMembers s) (forgetMembers t) :=
  .foldl (fun k _ _ h => forgetMember_alike k h) _ h

/-! ## Claims -/

theorem claim_alike (x : Piece) (h : Alike s t) : Alike (claim x s) (claim x t) := by
  obtain ⟨p, rfl⟩ := h
  exact tryPlace_alike (takeClaim_alike _ _ (raise_alike _ _ ⟨p, rfl⟩))

theorem filterSegment_alike (x : Piece) (h : Alike s t) : Alike (filterSegment x s) (filterSegment x t) := by
  have hclaim := claim_alike x h
  obtain ⟨p, rfl⟩ := h
  unfold filterSegment
  rw [show fate (s.setPort p) x = fate s x from rfl]
  split
  · exact ⟨p, rfl⟩
  · exact ⟨p, rfl⟩
  · exact raise_alike _ _ ⟨p, rfl⟩
  · exact raise_alike _ _ ⟨p, rfl⟩
  · exact raise_alike _ _ ⟨p, rfl⟩
  · exact raise_alike _ _ ⟨p, rfl⟩
  · exact hclaim

theorem takeSegment_alike (m : SegmentFields) (h : Alike s t) : Alike (takeSegment m s) (takeSegment m t) := by
  obtain ⟨p, rfl⟩ := h
  refine .ite Iff.rfl (fun _ => filterSegment_alike m.piece ?_) fun _ => ⟨p, rfl⟩
  split
  · exact takeRepairMark_alike _ ⟨p, rfl⟩
  · exact ⟨p, rfl⟩

/-! ## Settles -/

theorem recomputeEligibility_alike (w : Bool) (h : Alike s t) : Alike (recomputeEligibility w s) (recomputeEligibility w t) :=
  h.map _ fun _ _ => rfl

theorem purgeResponder_alike (h : Alike s t) : Alike (purgeResponder s) (purgeResponder t) := h.map _ fun _ _ => rfl

theorem sourceNotice_alike (h : Alike s t) : Alike (sourceNotice s) (sourceNotice t) := by
  have hlock := lockOffer_alike h
  obtain ⟨p, rfl⟩ := h
  exact .ite Iff.rfl (fun _ => purgeResponder_alike hlock) fun _ => ⟨p, rfl⟩

theorem sinkNotice_alike (a : Action) (f : Frame) (complete : Bool) (h : Alike s t) :
    Alike (sinkNotice a f complete s) (sinkNotice a f complete t) := by
  have hnotice := overtakeEntries_alike (bankNotice_alike a f complete (discardLanding_alike h))
  obtain ⟨p, rfl⟩ := h
  exact .ite Iff.rfl (fun _ => hnotice) fun _ => ⟨p, rfl⟩

theorem notice_alike (a : Action) (f : Frame) (complete w : Bool) (h : Alike s t) :
    Alike (notice a f complete w s) (notice a f complete w t) :=
  sinkNotice_alike _ _ _ (sourceNotice_alike (recomputeEligibility_alike w h))

theorem settleCommit_alike (h : Alike s t) : Alike (settleCommit s) (settleCommit t) := by
  obtain ⟨p, rfl⟩ := h
  exact notice_alike .commit s.openFrame (completeFor s s.openFrame) true (raise_alike _ _ ⟨p, rfl⟩)

theorem settleAbandon_alike (path : SettlePath) (h : Alike s t) : Alike (settleAbandon path s) (settleAbandon path t) := by
  obtain ⟨p, rfl⟩ := h
  exact notice_alike .abandon s.openFrame false true (post_alike _ _ _ (raise_alike _ _ ⟨p, rfl⟩))

theorem resync_alike (f : Frame) (k : SettleKind) (h : Alike s t) : Alike (resync f k s) (resync f k t) := by
  obtain ⟨p, rfl⟩ := h
  exact notice_alike .resync f false true
    (post_alike .resync f (toByte (min Config.count8 (forward s.settle.frame f))) (raise_alike _ _ ⟨p, rfl⟩))

theorem takeAhead_alike (path : SettlePath) (f : Frame) (k : SettleKind) (o : FrameOrder) (h : Alike s t) :
    Alike (takeAhead path f k o s) (takeAhead path f k o t) := by
  unfold takeAhead
  split
  · exact settleCommit_alike h
  · exact settleAbandon_alike _ h
  · exact resync_alike _ _ h
  · exact resync_alike _ _ h
  · exact h
  · exact h

theorem takeMark_alike (k : Nat) (m : MarkFields) (h : Alike s t) : Alike (takeMark k m s) (takeMark k m t) := by
  obtain ⟨p, rfl⟩ := h
  unfold takeMark
  rw [State.setPort_settle]
  split
  · exact ⟨p, rfl⟩
  · exact post_alike _ _ _ ⟨p, rfl⟩
  · exact takeAhead_alike _ _ _ _ ⟨p, rfl⟩
  · exact takeAhead_alike _ _ _ _ ⟨p, rfl⟩

theorem takeContent_alike (c : RoundContent) (h : Alike s t) : Alike (takeContent c s) (takeContent c t) := by
  unfold takeContent
  split
  · exact h
  · exact takeMark_alike _ _ h
  · unfold takeOwnMark
    refine .ite Iff.rfl (fun _ => ?_) fun _ => h
    split
    · exact settleCommit_alike h
    · exact settleAbandon_alike _ h
    · exact h

theorem recordMark_alike (c : RoundContent) (h : Alike s t) : Alike (recordMark c s) (recordMark c t) := by
  cases c with
  | nothing => exact h
  | received k m => exact h.map (recordMark (.received k m)) fun _ _ => rfl
  | own m verdict => exact h

theorem settleRoundStart_alike (c : RoundContent) (h : Alike s t) : Alike (settleRoundStart c s) (settleRoundStart c t) := by
  have hrecord := recordMark_alike c h
  have hcontent := takeContent_alike c (h.map raiseOpenAge fun _ _ => rfl)
  obtain ⟨p, rfl⟩ := h
  exact .ite Iff.rfl (fun _ => hcontent) fun _ => hrecord

theorem settleTakeState_alike (k : Nat) (m : StateFields) (h : Alike s t) :
    Alike (settleTakeState k m s) (settleTakeState k m t) := by
  obtain ⟨p, rfl⟩ := h
  exact .ite Iff.rfl (fun _ => takeAhead_alike .state m.settled m.kind (compareFrame s.settle.frame m.settled) ⟨p, rfl⟩)
    fun _ => ⟨p, rfl⟩

theorem arrive_alike (c : RoundContent) (a : RoundArrival) (h : Alike s t) : Alike (arrive c s a) (arrive c t a) := by
  cases a with
  | number => exact h.map (numberRoundStart c) fun _ _ => rfl
  | ageing => exact tableRoundStart_alike h
  | silence => exact captureRoundStart_alike h
  | waits =>
    have hwaits := requesterRoundStart_alike h
    obtain ⟨p, rfl⟩ := h
    exact .ite Iff.rfl (fun _ => hwaits) fun _ => ⟨p, rfl⟩
  | settle => exact settleRoundStart_alike c h

/-! ## The station -/

theorem isolateBus_alike (h : Alike s t) : Alike (isolateBus s) (isolateBus t) := h.map _ fun _ _ => rfl

theorem isolate_alike (code : FaultCode) (h : Alike s t) : Alike (isolate code s) (isolate code t) := by
  obtain ⟨p, rfl⟩ := h
  refine overtakeEntries_alike (isolateBanks_alike (discardLanding_alike (purgeResponder_alike (isolateCapture_alike
    (isolateBus_alike ?_)))))
  exact post_alike .isolated s.settle.frame code.code ⟨p, rfl⟩

theorem enterMember_alike (f : Frame) (k : SettleKind) (d : Byte) (h : Alike s t) :
    Alike (enterMember f k d s) (enterMember f k d t) := by
  obtain ⟨p, rfl⟩ := h
  exact notice_alike _ _ _ _ (post_alike _ _ _ ⟨p, rfl⟩)

theorem joinAlone_alike (h : Alike s t) : Alike (joinAlone s) (joinAlone t) := by
  obtain ⟨p, rfl⟩ := h
  exact enterMember_alike _ _ _ (forgetMembers_alike ⟨p, rfl⟩)

theorem joinByCount_alike (h : Alike s t) : Alike (joinByCount s) (joinByCount t) := by
  obtain ⟨p, rfl⟩ := h
  exact enterMember_alike (joiningFrame s).1 (joiningFrame s).2 0 ⟨p, rfl⟩

theorem countJoin_alike (h : Alike s t) : Alike (countJoin s) (countJoin t) := by
  obtain ⟨p, rfl⟩ := h
  exact .ite Iff.rfl (fun _ => joinByCount_alike ⟨p, rfl⟩) fun _ => ⟨p, rfl⟩

theorem roundStart_alike (c : RoundContent) (o : Orders) (h : Alike s t) : Alike (roundStart c o s) (roundStart c o t) := by
  have harrivals : Alike (roundArrivals c o s) (roundArrivals c o t) :=
    .foldl (fun a _ _ h => arrive_alike c a h) _ (h.map restartMarkTimer fun _ _ => rfl)
  rw [roundStart_eq, roundStart_eq]
  have hcount := countJoin_alike harrivals
  obtain ⟨q, hq⟩ := harrivals
  rw [hq] at hcount ⊢
  exact .ite Iff.rfl (fun _ => hcount) fun _ => ⟨q, rfl⟩

/-! ## The bus interface -/

theorem hearStart_alike (h : Alike s t) : Alike (hearStart s) (hearStart t) := by
  obtain ⟨p, rfl⟩ := h
  unfold hearStart
  rw [State.setPort_bus]
  split
  · exact ⟨p, rfl⟩
  · exact ⟨p, rfl⟩
  · exact ⟨p, rfl⟩

theorem takeBurstStart_alike (h : Alike s t) : Alike (takeBurstStart s) (takeBurstStart t) := by
  have hhear := hearStart_alike h
  obtain ⟨p, rfl⟩ := h
  unfold takeBurstStart
  rw [State.setPort_station]
  split
  · exact ⟨p, rfl⟩
  · exact ⟨p, rfl⟩
  · exact .ite Iff.rfl (fun _ => hearStart_alike ⟨p, rfl⟩) fun _ => ⟨p, rfl⟩
  · exact .ite Iff.rfl (fun _ => ⟨p, rfl⟩) fun _ => hhear

theorem send_alike (i : SentItem) (c : Bool) (x : Body) (h : Alike s t) : Alike (send i c x s) (send i c x t) := by
  have hhear := hearStart_alike h
  obtain ⟨p, rfl⟩ := h
  obtain ⟨q, hq⟩ := hhear
  unfold send
  rw [hq]
  exact ⟨q, rfl⟩

theorem sendStream_alike (h : Alike s t) : Alike (sendStream s) (sendStream t) := by
  obtain ⟨p, rfl⟩ := h
  unfold sendStream
  rw [State.setPort_publishQueue, State.setPort_responder]
  split
  · exact send_alike _ _ _ ⟨p, rfl⟩
  · exact send_alike _ _ _ ⟨p, rfl⟩
  · exact ⟨p, rfl⟩

theorem sendOpen_alike (h : Alike s t) : Alike (sendOpen s) (sendOpen t) := by
  obtain ⟨p, rfl⟩ := h
  unfold sendOpen
  rw [State.setPort_responder, show pendingEntry (s.setPort p) = pendingEntry s from rfl]
  split
  · exact send_alike _ _ _ ⟨p, rfl⟩
  · exact send_alike _ _ _ ⟨p, rfl⟩
  · exact send_alike _ _ _ ⟨p, rfl⟩
  · exact ⟨p, rfl⟩

theorem beginPosition_alike (h : Alike s t) : Alike (beginPosition s) (beginPosition t) := by
  have hstream := sendStream_alike h
  have hopen := sendOpen_alike h
  obtain ⟨p, rfl⟩ := h
  unfold beginPosition
  rw [State.setPort_bus, show (s.setPort p).image = s.image from rfl]
  split
  · exact ⟨p, rfl⟩
  · exact ⟨p, rfl⟩
  · refine .ite Iff.rfl (fun _ => ?_) fun _ => .ite Iff.rfl (fun _ => ?_) fun _ => hopen
    · exact .ite Iff.rfl (fun _ => send_alike .state false (.state (composeState s)) ⟨p, rfl⟩) fun _ => ⟨p, rfl⟩
    · split
      · exact .ite Iff.rfl (fun _ => hstream) fun _ => ⟨p, rfl⟩
      · exact ⟨p, rfl⟩

theorem sendMark_alike (h : Alike s t) : Alike (sendMark s) (sendMark t) := by
  obtain ⟨p, rfl⟩ := h
  exact (send_alike (.mark (composeMark s) (composeVerdict s).2.2) true (.mark (composeMark s)) ⟨p, rfl⟩).map
    (fun s => s.setBus { s.bus with markClaim := true }) fun _ _ => rfl

theorem takeFault_alike (i : SentItem) (h : Alike s t) : Alike (takeFault i s) (takeFault i t) := by
  have hcount : Alike (countFault i s) (countFault i t) :=
    (raise_alike .readbackFaults 1 h).map (fun s => s.setBus { s.bus with
      consecutiveFaults := saturate Config.mediumFaultLimit s.bus.consecutiveFaults 1,
      collisions := if i.isState then saturate Config.collisionLimit s.bus.collisions 1 else s.bus.collisions }) fun _ _ => rfl
  obtain ⟨q, hq⟩ := hcount
  unfold takeFault
  rw [hq]
  refine .ite Iff.rfl (fun _ => isolate_alike _ ⟨q, rfl⟩) fun _ => ?_
  exact .ite Iff.rfl (fun _ => isolate_alike _ ⟨q, rfl⟩) fun _ => ⟨q, rfl⟩

theorem settleReadback_alike (r : Option (SentItem × Readback)) (h : Alike s t) :
    Alike (settleReadback r s) (settleReadback r t) := by
  have hover : Alike (afterBurst s) (afterBurst t) := h.map afterBurst fun _ _ => rfl
  unfold settleReadback
  split
  · exact hover
  · exact hover.map (takeClean _) fun _ _ => rfl
  · exact hover.map (takeLoss _) fun _ _ => rfl
  · exact takeFault_alike _ hover

theorem reportPassed_alike (i : Option SentItem) (h : Alike s t) : Alike (reportPassed i s) (reportPassed i t) := by
  unfold reportPassed
  split
  · exact h
  · exact h
  · exact h
  · exact freshPassed_alike h
  · exact slotPassed_alike h
  · exact requestPassed_alike _ h
  · exact statusPassed_alike h

theorem stateArrive_alike (k : Nat) (m : StateFields) (a : StateArrival) (h : Alike s t) :
    Alike (stateArrive k m s a) (stateArrive k m t a) := by
  cases a with
  | record => exact tableTakeState_alike k m h
  | catchUp => exact settleTakeState_alike k m h
  | published => exact requesterTakeState_alike k m h

theorem deliverMember_alike (b : Burst) (o : Orders) (h : Alike s t) : Alike (deliverMember b o s) (deliverMember b o t) := by
  unfold deliverMember
  split
  · exact h
  · exact .foldl (fun a _ _ h => stateArrive_alike _ _ a h) _ h
  · exact takeSegment_alike _ h
  · exact takeRequest_alike _ _ h
  · have hstatus := fun k m => takeStatus_alike k m h
    obtain ⟨p, rfl⟩ := h
    exact .ite Iff.rfl (fun _ => hstatus _ _) fun _ => ⟨p, rfl⟩

theorem deliverListening_alike (b : Burst) (h : Alike s t) : Alike (deliverListening b s) (deliverListening b t) := by
  unfold deliverListening
  split
  · have htable := fun k m => tableTakeState_alike k m h
    have hisolate := fun code => isolate_alike code h
    obtain ⟨p, rfl⟩ := h
    exact .ite Iff.rfl (fun _ => hisolate _) fun _ => htable _ _
  · exact recordMark_alike _ h
  · exact h
  · exact h
  · exact h

theorem deliver_alike (j : Judgment) (o : Orders) (h : Alike s t) : Alike (deliver j o s) (deliver j o t) := by
  unfold deliver
  split
  · have hmember := fun b => deliverMember_alike b o h
    have hlistening := fun b => deliverListening_alike b h
    obtain ⟨p, rfl⟩ := h
    exact .ite Iff.rfl (fun _ => hmember _) fun _ => hlistening _
  · exact h
  · exact h
  · exact h

theorem concludeBurst_alike (v : Hearing) (i : Option SentItem) (j : Judgment) (o : Orders) (h : Alike s t) :
    Alike (concludeBurst v i j o s) (concludeBurst v i j o t) := by
  have hcount := countJudgment_alike j h
  refine .ite Iff.rfl (fun _ => roundStart_alike _ o hcount) fun _ => ?_
  refine .ite Iff.rfl (fun _ => ?_) fun _ => ?_
  · exact deliver_alike j o (reportPassed_alike i hcount)
  · exact reportPassed_alike i (deliver_alike j o hcount)

theorem endBurst_alike (v : Hearing) (cut : Bool) (heard : List Byte) (o : Orders) (h : Alike s t) :
    Alike (endBurst v cut heard o s) (endBurst v cut heard o t) := by
  have hreadback := fun r => settleReadback_alike r h
  obtain ⟨p, rfl⟩ := h
  obtain ⟨q, hq⟩ := hreadback (ownReadback s heard)
  unfold endBurst
  dsimp only
  rw [show ownReadback (s.setPort p) heard = ownReadback s heard from rfl, hq, show (s.setPort p).image = s.image from rfl,
    State.setPort_bus]
  exact .ite Iff.rfl (fun _ => ⟨q, rfl⟩) fun _ => concludeBurst_alike _ _ _ o ⟨q, rfl⟩

theorem endCandidate_alike (heard : List Byte) (o : Orders) (h : Alike s t) :
    Alike (endCandidate heard o s) (endCandidate heard o t) := by
  obtain ⟨p, rfl⟩ := h
  cases hc : candidateMark (s.setBus { s.bus with hearing := none }) heard with
  | none =>
    rw [endCandidate_of_none hc, endCandidate_of_none (s := s.setPort p) hc]
    exact ⟨p, rfl⟩
  | some v =>
    obtain ⟨k, m⟩ := v
    rw [endCandidate_of_mark hc, endCandidate_of_mark (s := s.setPort p) hc]
    exact roundStart_alike _ o ⟨p, rfl⟩

theorem takeBurst_alike (heard : List Byte) (o : Orders) (h : Alike s t) : Alike (takeBurst heard o s) (takeBurst heard o t) := by
  have hend := fun v => endBurst_alike v false heard o h
  have hcandidate := endCandidate_alike heard o h
  obtain ⟨p, rfl⟩ := h
  unfold takeBurst
  rw [State.setPort_bus]
  split
  · exact ⟨p, rfl⟩
  · exact .ite Iff.rfl (fun _ => hend _) fun _ => .ite Iff.rfl (fun _ => hcandidate) fun _ => ⟨p, rfl⟩

theorem advancePosition_alike (h : Alike s t) : Alike (advancePosition s) (advancePosition t) := by
  obtain ⟨p, rfl⟩ := h
  exact .ite Iff.rfl (fun _ => beginPosition_alike ⟨p, rfl⟩) fun _ => ⟨p, rfl⟩

theorem cutBurst_alike (heard : List Byte) (o : Orders) (h : Alike s t) : Alike (cutBurst heard o s) (cutBurst heard o t) := by
  have hend := fun v => endBurst_alike v true heard o h
  obtain ⟨p, rfl⟩ := h
  unfold cutBurst
  rw [State.setPort_bus]
  split
  · exact hend _
  · exact ⟨p, rfl⟩

theorem endPosition_alike (heard : List Byte) (o : Orders) (h : Alike s t) :
    Alike (endPosition heard o s) (endPosition heard o t) := by
  have hcut := cutBurst_alike heard o h
  obtain ⟨p, rfl⟩ := h
  obtain ⟨q, hq⟩ := hcut
  unfold endPosition
  rw [State.setPort_bus, hq]
  split
  · exact ⟨p, rfl⟩
  · exact .ite Iff.rfl (fun _ => ⟨q, rfl⟩) fun _ => advancePosition_alike ⟨q, rfl⟩

theorem takePositionEnd_alike (heard : List Byte) (o : Orders) (h : Alike s t) :
    Alike (takePositionEnd heard o s) (takePositionEnd heard o t) := by
  have hend := endPosition_alike heard o h
  obtain ⟨p, rfl⟩ := h
  exact .ite Iff.rfl (fun _ => hend) fun _ => .ite Iff.rfl (fun _ => ⟨p, rfl⟩) fun _ => ⟨p, rfl⟩

theorem expireListening_alike (h : Alike s t) : Alike (expireListening s) (expireListening t) := by
  obtain ⟨p, rfl⟩ := h
  exact .ite Iff.rfl (fun _ => joinAlone_alike ⟨p, rfl⟩) fun _ => ⟨p, rfl⟩

theorem expireMember_alike (h : Alike s t) : Alike (expireMember s) (expireMember t) := by
  obtain ⟨p, rfl⟩ := h
  exact .ite Iff.rfl (fun _ => ⟨p, rfl⟩) fun _ => sendMark_alike ⟨p, rfl⟩

theorem expireMarkTimer_alike (h : Alike s t) : Alike (expireMarkTimer s) (expireMarkTimer t) := by
  have hlistening := expireListening_alike h
  have hmember := expireMember_alike h
  obtain ⟨p, rfl⟩ := h
  refine .ite Iff.rfl (fun _ => ⟨p, rfl⟩) fun _ => .ite Iff.rfl (fun _ => hlistening) fun _ => ?_
  exact .ite Iff.rfl (fun _ => hmember) fun _ => ⟨p, rfl⟩

/-! ## Loading -/

theorem endRead_alike (bs : List Byte) (h : Alike s t) : Alike (endRead bs s) (endRead bs t) := by
  unfold endRead
  split
  · exact isolate_alike _ (h.map (fun s => s.setLoader { s.loader with reading := false }) fun _ _ => rfl)
  · obtain ⟨p, rfl⟩ := h
    exact .ite Iff.rfl (fun _ => ⟨p, rfl⟩) fun _ => ⟨p, rfl⟩

end

/-! ## The commands -/

/-- A burst's end under a condition that does not read the port. -/
theorem burst_alike {a b : Bool} (hab : b = a) (heard : List Byte) (o : Orders) {s t : State} (h : Alike s t) :
    Alike (if a then takeBurst heard o s else s) (if b then takeBurst heard o t else t) :=
  .ite (by rw [hab]) (fun _ => takeBurst_alike heard o h) fun _ => h

theorem roundStartComes_setPort (s : State) (p : StatusPort) (heard : List Byte) :
    roundStartComes (s.setPort p) heard = roundStartComes s heard := by
  obtain ⟨q, hq⟩ := settleReadback_alike (ownReadback s heard) (.setPort (s := s) p)
  unfold roundStartComes
  rw [State.setPort_bus, show ownReadback (s.setPort p) heard = ownReadback s heard from rfl, hq]
  rfl

theorem settleDue_alike (due : SentItem → State → Bool) (hdue : ∀ i s p, due i (s.setPort p) = due i s) (heard : List Byte)
    (s : State) (p : StatusPort) : Alike
    (match faultComes s heard with
      | some item => if due item s then settleReadback (ownReadback s heard) s else s
      | none => s)
    (match faultComes (s.setPort p) heard with
      | some item => if due item (s.setPort p) then settleReadback (ownReadback (s.setPort p) heard) (s.setPort p)
        else s.setPort p
      | none => s.setPort p) := by
  rw [show faultComes (s.setPort p) heard = faultComes s heard from rfl]
  split
  next i _ => exact .ite (by rw [hdue]) (fun _ => settleReadback_alike (ownReadback s heard) ⟨p, rfl⟩) fun _ => ⟨p, rfl⟩
  next => exact ⟨p, rfl⟩

theorem alike_of_next {s t u v : State} (hs : (Host.Outcome.next u : Host.Outcome State Fault Refusal) = .next s)
    (ht : (Host.Outcome.next v : Host.Outcome State Fault Refusal) = .next t) (h : Alike u v) : Alike s t := by
  rw [Host.Outcome.next.injEq] at hs ht
  exact hs ▸ ht ▸ h

/-- Every command but a port command, from states that differ in the port alone. -/
theorem exec_alike {c : Instr} {s t u : State} {p : StatusPort} (hport : isPortCommand c = false) (hs : exec c s = .next t)
    (hp : exec c (s.setPort p) = .next u) : Alike t u := by
  have h : Alike s (s.setPort p) := ⟨p, rfl⟩
  have burst : ∀ {a b : Bool}, b = a → ∀ heard o, Alike (if a then takeBurst heard o s else s)
      (if b then takeBurst heard o (s.setPort p) else s.setPort p) := fun hab heard o => burst_alike hab heard o h
  have comes : ∀ (b : Bool) heard, (roundStartComes (s.setPort p) heard && b) = (roundStartComes s heard && b) :=
    fun b heard => by rw [roundStartComes_setPort]
  cases c with
  | reset => exact alike_of_next hs hp ⟨_, rfl⟩
  | configReadComplete image => exact alike_of_next hs hp (.ite Iff.rfl (fun _ => endRead_alike image h) fun _ => h)
  | startUpClearComplete =>
    exact alike_of_next hs hp
      (.ite Iff.rfl (fun _ => (endStartUpClear_alike h).map enterListen fun _ _ => rfl) fun _ => h)
  | markTimerExpiry => exact alike_of_next hs hp (expireMarkTimer_alike h)
  | joinAlone => exact alike_of_next hs hp (.ite Iff.rfl (fun _ => expireListening_alike h) fun _ => h)
  | burstStart => exact alike_of_next hs hp (takeBurstStart_alike h)
  | positionEnd heard o => exact alike_of_next hs hp (takePositionEnd_alike heard o h)
  | burstTaken heard o => exact alike_of_next hs hp (takeBurst_alike heard o h)
  | mediumFault heard => exact alike_of_next hs hp (settleDue_alike mediumFaultDue (fun _ _ _ => rfl) heard s p)
  | duplicateNumber heard => exact alike_of_next hs hp (settleDue_alike collisionDue (fun _ _ _ => rfl) heard s p)
  | memberAbsent heard o => exact alike_of_next hs hp (burst (comes (absenceDue s) heard) heard o)
  | joinByCount heard o => exact alike_of_next hs hp (burst (comes (joinDue s) heard) heard o)
  | frameStart => exact alike_of_next hs hp (takeFrameStart_alike h)
  | rowCompletion pixels => exact alike_of_next hs hp (takeRow_alike pixels h)
  | inputLost heard o => exact alike_of_next hs hp (burst (comes (inputLossDue s) heard) heard o)
  | placementComplete => exact alike_of_next hs hp (completePlacement_alike h)
  | bankClearComplete => exact alike_of_next hs hp (endBankClear_alike h)
  | scanStart => exact alike_of_next hs hp (.ite Iff.rfl (fun _ => scanStart_alike h) fun _ => h)
  | scanEnd => exact alike_of_next hs hp ⟨p, rfl⟩
  | backoffEnd heard o => exact alike_of_next hs hp (burst (comes (backoffDue s) heard) heard o)
  | repairTimeout heard o => exact alike_of_next hs hp (burst (comes (timeoutDue s) heard) heard o)
  | resetRelease => exact alike_of_next hs hp ⟨p, rfl⟩
  | _ => exact absurd hport (by simp [isPortCommand])

/-- Settles O11. -/
theorem wallWorkIgnoresPort : Obligations.WallWorkIgnoresPort := by
  intro c s t p hport h
  obtain ⟨u, hu⟩ := exec_next c (s.setPort p)
  obtain ⟨q, hq⟩ := exec_alike hport h hu
  exact ⟨q, hq ▸ hu⟩

end Sys2Proof.Machine
end

section
/-! Pieces, the coverage plan and payloads, and how loading ends. -/

namespace Sys2Proof.Machine

/-! ## Pieces of a row (R4) -/

section
variable (e : StreamEntry) (i : Nat)

theorem pieces_eq : e.pieces = (e.width + 255) / 256 := rfl

theorem pieceFirst_eq : e.pieceFirst i = e.x0 + 256 * i := rfl

theorem pieceLast_eq : e.pieceLast i = min (e.x0 + 256 * i + 255) (e.x0 + e.width - 1) := rfl

theorem indexOf_eq (c : Nat) : e.indexOf c = (c - e.x0) / 256 := rfl

theorem piecePixels_eq : e.piecePixels i = min (e.x0 + 256 * i + 255) (e.x0 + e.width - 1) + 1 - (e.x0 + 256 * i) := rfl

end

/-- Settles O13. -/
theorem piecesCutTheRow : Obligations.PiecesCutTheRow := by
  intro e hwidth
  refine ⟨fun c hlow hhigh => ⟨?_, fun i hi => ?_⟩, fun i hi => ?_, ?_, ?_, ?_⟩
  · rw [indexOf_eq, pieces_eq]
    omega
  · rw [pieceFirst_eq, pieceLast_eq, indexOf_eq]
    rw [pieces_eq] at hi
    omega
  · rw [piecePixels_eq]
    rw [pieces_eq] at hi
    omega
  · rw [piecePixels_eq, pieces_eq]
    omega
  · rw [piecePixels_eq, pieces_eq]
    omega
  · rw [piecePixels_eq, pieces_eq]
    omega

/-! ## The plan (R12, R13) -/

theorem contributes_iff {img : Image} {k : Nat} : img.contributes k = true ↔ (img.stream k).valid = true ∧
    (img.stream k).x0 < img.tileX + img.tileWidth ∧ img.tileX < (img.stream k).x0 + (img.stream k).width ∧
    (img.stream k).y0 < img.tileY + img.tileHeight ∧ img.tileY < (img.stream k).y0 + (img.stream k).height := by
  simp only [Image.contributes, Rect.intersects, Bool.and_eq_true, decide_eq_true_eq, and_assoc]
  rfl

/-- The pieces of a contributing stream between its first and its last shared column are those that share a column with the
tile. -/
theorem shared_pieces_iff {img : Image} {k i : Nat} (htile : 1 ≤ img.tileWidth) (hc : img.contributes k = true)
    (hwidth : 1 ≤ (img.stream k).width) :
    ((img.stream k).indexOf (img.firstShared k) ≤ i ∧ i ≤ (img.stream k).indexOf (img.lastShared k)) ↔
      i < (img.stream k).pieces ∧ ∃ c, (img.stream k).pieceFirst i ≤ c ∧ c ≤ (img.stream k).pieceLast i ∧
        img.tileX ≤ c ∧ c < img.tileX + img.tileWidth := by
  obtain ⟨-, hleft, hright, -, -⟩ := contributes_iff.1 hc
  rw [indexOf_eq, indexOf_eq, pieces_eq, pieceFirst_eq, pieceLast_eq, Image.firstShared, Image.lastShared]
  constructor
  · rintro ⟨hlow, hhigh⟩
    exact ⟨by omega, max ((img.stream k).x0 + 256 * i) img.tileX, by omega, by omega, by omega, by omega⟩
  · rintro ⟨hi, c, hfirst, hlast, htile, htile'⟩
    omega

theorem exists_expected_iff {img : Image} {y k i : Nat} (htile : 1 ≤ img.tileWidth)
    (hwidth : ∀ k, (img.stream k).valid = true → 1 ≤ (img.stream k).width) :
    (∃ e ∈ img.expectedRow y, e.stream = k ∧ e.index = i) ↔
      k < 16 ∧ img.contributes k = true ∧ (img.stream k).rect.coversRow y = true ∧ i < (img.stream k).pieces ∧
        ∃ c, (img.stream k).pieceFirst i ≤ c ∧ c ≤ (img.stream k).pieceLast i ∧
          img.tileX ≤ c ∧ c < img.tileX + img.tileWidth := by
  constructor
  · rintro ⟨e, he, hstream, hindex⟩
    obtain ⟨k', hk, he⟩ := mem_expectedRow.1 he
    obtain ⟨hc, hr, i', hlow, hhigh, rfl⟩ := mem_expectedOf.1 he
    obtain rfl : k' = k := hstream
    obtain rfl : i' = i := hindex
    exact ⟨hk, hc, hr, (shared_pieces_iff htile hc (hwidth _ (contributes_iff.1 hc).1)).1 ⟨hlow, hhigh⟩⟩
  · rintro ⟨hk, hc, hr, hshared⟩
    obtain ⟨hlow, hhigh⟩ := (shared_pieces_iff htile hc (hwidth _ (contributes_iff.1 hc).1)).2 hshared
    exact ⟨img.expectedPiece k i, mem_expectedRow.2 ⟨k, hk, mem_expectedOf.2 ⟨hc, hr, i, hlow, hhigh, rfl⟩⟩, rfl, rfl⟩

theorem expectedRow_sorted (img : Image) (y : Nat) : (img.expectedRow y).Pairwise (fun a b => a.placedFirst ≤ b.placedFirst) := by
  unfold Image.expectedRow
  generalize streamIds.flatMap (img.expectedOf y) = l
  induction l with
  | nil => exact .nil
  | cons e l ih => exact insertExpected_sorted e ih

theorem coveragePlan_getD {img : Image} {v : Nat} (hv : v < img.tileHeight) :
    img.coveragePlan.getD v [] = img.expectedRow (img.tileY + v) := by
  rw [Image.coveragePlan, List.getD_eq_getElem?_getD, List.getElem?_map, List.getElem?_range hv]
  rfl

/-- Settles O14. -/
theorem planListsPiecesInTile : Obligations.PlanListsPiecesInTile := by
  refine ⟨fun img => ⟨by rw [Image.coveragePlan, List.length_map, List.length_range], fun v hv => coveragePlan_getD hv⟩,
    fun img y htile hwidth => ⟨fun k i => exists_expected_iff htile hwidth, fun e he => ?_, expectedRow_sorted img y⟩⟩
  obtain ⟨k, -, he⟩ := mem_expectedRow.1 he
  obtain ⟨-, -, i, -, -, rfl⟩ := mem_expectedOf.1 he
  exact ⟨rfl, rfl, rfl, rfl⟩

/-! ## Payloads (R7, R8, R172) -/

theorem toByte_toNat {n : Nat} (h : n < 256) : (toByte n).toNat = n := by
  rw [toByte, BitVec.toNat_ofNat]
  exact Nat.mod_eq_of_lt h

theorem toByte_toNat_mod (n : Nat) : (toByte n).toNat = n % 256 := BitVec.toNat_ofNat _ _

/-- The three 4-bit colours of a NARROW pixel. -/
def Colours.Narrow (c : Colours) : Prop := c.red < 16 ∧ c.green < 16 ∧ c.blue < 16

theorem narrowOf_narrow (p : Pixel) : (narrowOf p).Narrow := by
  have hp := p.isLt
  refine ⟨?_, ?_, ?_⟩
  · show p.toNat / 2048 / 2 < 16
    omega
  · show p.toNat / 32 % 64 / 4 < 16
    omega
  · show p.toNat % 32 / 2 < 16
    omega

theorem packNarrow_length (l : List Colours) : (packNarrow l).length = (3 * l.length + 1) / 2 := by
  induction l using packNarrow.induct with
  | case1 => rfl
  | case2 p => simp [packNarrow]
  | case3 p q l ih =>
    rw [packNarrow, List.length_cons, List.length_cons, List.length_cons, ih, List.length_cons, List.length_cons]
    omega

theorem packWide_length (l : List Pixel) : (packWide l).length = 2 * l.length :=
  length_flatMap_of_const (fun p : Pixel => toPair p.toNat) (fun _ => rfl) l

/-- A two-byte number is read back. -/
theorem pair_toNat {n : Nat} (h : n < 65536) : (toByte (n / 256)).toNat * 256 + (toByte n).toNat = n := by
  rw [toByte_toNat (by omega), toByte_toNat_mod, Nat.div_add_mod']

/-- A 16-bit word is read back from its two bytes. -/
theorem ofNat_pair (p : BitVec 16) : BitVec.ofNat 16 ((toByte (p.toNat / 256)).toNat * 256 + (toByte p.toNat).toNat) = p := by
  rw [pair_toNat p.isLt, BitVec.ofNat_toNat, BitVec.setWidth_eq]

theorem unpackWide_packWide (l : List Pixel) : unpackWide (packWide l) = l := by
  induction l with
  | nil => rfl
  | cons p l ih =>
    show BitVec.ofNat 16 ((toByte (p.toNat / 256)).toNat * 256 + (toByte p.toNat).toNat) :: unpackWide (packWide l) = p :: l
    rw [ofNat_pair, ih]

/-- Two 4-bit numbers in a byte are read back. -/
theorem nibbles {a b : Nat} (ha : a < 16) (hb : b < 16) :
    (toByte (a * 16 + b)).toNat / 16 = a ∧ (toByte (a * 16 + b)).toNat % 16 = b := by
  rw [toByte_toNat (by omega)]
  omega

theorem unpackNarrow_packNarrow (l : List Colours) (h : ∀ c ∈ l, c.Narrow) : unpackNarrow (packNarrow l) = l := by
  induction l using packNarrow.induct with
  | case1 => rfl
  | case2 p =>
    obtain ⟨hr, hg, hb⟩ := h p List.mem_cons_self
    obtain ⟨hred, hgreen⟩ := nibbles hr hg
    obtain ⟨hblue, -⟩ := nibbles hb (Nat.zero_lt_succ 15)
    show [Colours.mk _ _ _] = [p]
    rw [hred, hgreen]
    exact congrArg (fun b => [Colours.mk p.red p.green b]) hblue
  | case3 p q l ih =>
    obtain ⟨hr, hg, hb⟩ := h p List.mem_cons_self
    obtain ⟨hr', hg', hb'⟩ := h q (List.mem_cons_of_mem _ List.mem_cons_self)
    obtain ⟨hred, hgreen⟩ := nibbles hr hg
    obtain ⟨hblue, hred'⟩ := nibbles hb hr'
    obtain ⟨hgreen', hblue'⟩ := nibbles hg' hb'
    have hrest := ih fun c hc => h c (List.mem_cons_of_mem _ (List.mem_cons_of_mem _ hc))
    rw [packNarrow, unpackNarrow, hred, hgreen, hblue, hred', hgreen', hblue', hrest]

/-- Settles O16. -/
theorem payloadsReadBack : Obligations.PayloadsReadBack := by
  refine ⟨fun p => rfl, fun f l => ?_, unpackWide_packWide, fun l => ?_, fun a b b' h => ?_⟩
  · cases f with
    | wide => exact packWide_length l
    | narrow =>
      show (packNarrow (l.map narrowOf)).length = (3 * l.length + 1) / 2
      rw [packNarrow_length, List.length_map]
  · refine unpackNarrow_packNarrow _ fun c hc => ?_
    obtain ⟨p, -, rfl⟩ := List.mem_map.1 hc
    exact narrowOf_narrow p
  · rw [unpackNarrow, unpackNarrow, h]

/-! ## The end of the read (R39, R45) -/

theorem endRead_of_fault {bs : List Byte} {code : FaultCode} (h : readFault bs = some code) (s : State) :
    endRead bs s = isolate code (s.setLoader { s.loader with reading := false }) := by
  rw [endRead, h]

theorem endRead_of_accepted {bs : List Byte} (h : readFault bs = none) (s : State) : endRead bs s = acceptImage bs s := by
  rw [endRead, h]

theorem exec_configReadComplete {s : State} (hl : s.station.state = .loading) (hr : s.loader.reading = true) (bs : List Byte) :
    exec (.configReadComplete bs) s = .next (endRead bs s) :=
  next_congr (if_pos (by rw [hl, hr]; rfl))

theorem exec_configReadComplete_idle {s : State} (h : s.station.state ≠ .loading ∨ s.loader.reading = false) (bs : List Byte) :
    exec (.configReadComplete bs) s = .next s := by
  refine next_congr (if_neg ?_)
  rw [Bool.and_eq_true, beq_iff_eq]
  rintro ⟨hl, hr⟩
  rcases h with h | h
  · exact h hl
  · exact absurd (h.symm.trans hr) (by simp)

/-- Settles O20. -/
theorem configFaultIsolates : Obligations.ConfigFaultIsolates := by
  intro s bs code hl hr h
  refine ⟨_, exec_configReadComplete hl hr bs, ?_⟩
  rw [endRead_of_fault h]
  have i := isolate_isolates code (s.setLoader { s.loader with reading := false })
  have hloader := isolate_writes code (s.setLoader { s.loader with reading := false }) .loader (by decide)
  obtain ⟨hstation, hbus, htimer, hcapture, hstores, hresponder, hengine, hbanks, hrequester, hfrozen⟩ := i
  refine ⟨⟨hstation, hbus, htimer, hcapture, hstores, hresponder, hengine, hbanks, hrequester, hfrozen⟩, hloader, ?_⟩
  rw [isolate_port]
  exact post_port_congr _ _ _ rfl rfl

/-- Settles O21. -/
theorem acceptedImageStartsStation : Obligations.AcceptedImageStartsStation := by
  intro s bs
  refine ⟨fun hl hr h => ⟨_, exec_configReadComplete hl hr bs, ?_⟩, fun h => exec_configReadComplete_idle h bs⟩
  rw [endRead_of_accepted h]
  have w := acceptImage_writes bs s
  cases hsink : (parseImage bs).sinkRole with
  | true =>
    rw [acceptImage_of_sink hsink]
    refine ⟨?_, fun _ => rfl, fun hn => absurd hn (by simp)⟩
    simp only [State.setBanks_loader, State.setCoverage_loader, State.setLoader_loader, acceptedOf, hsink]
  | false =>
    have himage : (s.setLoader { reading := false, accepted := some (acceptedOf bs) }).image = parseImage bs := rfl
    rw [acceptImage_of_not_sink hsink] at w ⊢
    have wlisten := enterListen_writes (s.setLoader { reading := false, accepted := some (acceptedOf bs) })
    refine ⟨?_, fun hn => absurd hn (by simp), fun _ => ⟨rfl, rfl, rfl, ?_, rfl, ?_⟩⟩
    · rw [show (enterListen _).loader = _ from wlisten .loader (by decide), State.setLoader_loader, acceptedOf]
      simp only [hsink]
    · show s.members.set (parseImage bs).stationNumber (selfEntry (parseImage bs)) = _
      rw [selfEntry, hsink]
      rfl
    · refine .followedBy ((setLoader_writes _ _).widen (by decide)) wlisten (by decide)

/-- Settles O22. -/
theorem startUpClearEntersListen : Obligations.StartUpClearEntersListen := by
  intro s
  refine ⟨fun hl hc hswap => ⟨enterListen (endStartUpClear s), next_congr (if_pos (by rw [hl, hc]; rfl)), ?_⟩, fun h => ?_⟩
  · rw [endStartUpClear_of_none hswap]
    refine ⟨rfl, fun a => ⟨rfl, rfl⟩, rfl, rfl, rfl, rfl, rfl, rfl, ?_⟩
    refine .followedBy ?_ (enterListen_writes _) (by decide)
    exact .followedBy ((setBanks_writes _ _).widen (by decide)) (setScan_writes _ _) (by decide)
  · refine next_congr (if_neg ?_)
    rw [Bool.and_eq_true, beq_iff_eq, beq_iff_eq]
    rintro ⟨hl, hc⟩
    exact h.elim (fun h => h hl) fun h => h hc

end Sys2Proof.Machine
end

section
/-! Bursts as bytes: the check word closes a burst, every field composed is read back, and the readback outcome by the bytes. -/

namespace Sys2Proof.Machine

/-! ## The check word (R170) -/

theorem toQuad_length (w : BitVec 32) : (toQuad w).length = 4 := rfl

theorem closed_length (bs : List Byte) : (closed bs).length = bs.length + 4 := by
  rw [closed, List.length_append, toQuad_length]

theorem beforeCheck_closed (bs : List Byte) : beforeCheck (closed bs) = bs := by
  rw [beforeCheck, closed_length, Nat.add_sub_cancel, closed, List.take_left]

theorem checkAgrees_closed (bs : List Byte) : checkAgrees (closed bs) = true := by
  rw [checkAgrees, beforeCheck_closed, closed_length, Nat.add_sub_cancel, closed, List.drop_left, beq_self_eq_true, Bool.and_true,
    decide_eq_true_iff]
  exact Nat.le_add_left 4 _

/-! ## The arbitration field and the kind (R25, R170) -/

/-- The bytes of a burst before its check word. -/
def burstBytes (b : Burst) : List Byte :=
  toByte (b.body.classOf * 32 + b.sender) :: toByte b.body.kindCode :: encodeBody b.body

theorem encodeBurst_eq (b : Burst) : encodeBurst b = closed (burstBytes b) := rfl

theorem classOf_lt (b : Body) : b.classOf < 6 := by
  cases b with
  | segment m =>
    show (if m.repair.isSome then 3 else 5) < 6
    split <;> decide
  | mark m => exact Nat.succ_pos 5
  | status m => exact Nat.lt_of_sub_eq_succ rfl
  | request m => exact Nat.lt_of_sub_eq_succ rfl
  | state m => exact Nat.lt_of_sub_eq_succ rfl

theorem encodeBurst_head {b : Burst} (h : b.sender < 32) : byteAt (encodeBurst b) 0 = b.body.classOf * 32 + b.sender := by
  have hclass := classOf_lt b.body
  exact toByte_toNat (by omega)

theorem encodeBurst_kind (b : Burst) : kindBits (encodeBurst b) = b.body.kindCode := by
  cases h : b.body <;> (show (toByte b.body.kindCode).toNat = _; rw [h]; rfl)

theorem encodeBurst_class {b : Burst} (h : b.sender < 32) : classBits (encodeBurst b) = b.body.classOf := by
  rw [classBits, encodeBurst_head h]
  omega

theorem encodeBurst_sender {b : Burst} (h : b.sender < 32) : senderBits (encodeBurst b) = b.sender := by
  rw [senderBits, encodeBurst_head h]
  omega

/-! ## Fields in a byte -/

theorem bitOf_le (b : Bool) : bitOf b ≤ 1 := by cases b <;> decide

/-- The flags of a STATE (R171). -/
theorem stateFlags : ∀ a b c d e : Bool,
    (toByte (bitOf a * 128 + bitOf b * 64 + bitOf c * 32 + bitOf d * 16 + bitOf e * 8)).getLsbD 7 = a ∧
    (toByte (bitOf a * 128 + bitOf b * 64 + bitOf c * 32 + bitOf d * 16 + bitOf e * 8)).getLsbD 6 = b ∧
    (toByte (bitOf a * 128 + bitOf b * 64 + bitOf c * 32 + bitOf d * 16 + bitOf e * 8)).getLsbD 5 = c ∧
    (toByte (bitOf a * 128 + bitOf b * 64 + bitOf c * 32 + bitOf d * 16 + bitOf e * 8)).getLsbD 4 = d ∧
    (toByte (bitOf a * 128 + bitOf b * 64 + bitOf c * 32 + bitOf d * 16 + bitOf e * 8)).getLsbD 3 = e := by
  decide

/-- The first byte of an offer (R171). -/
theorem offerFlags : ∀ a b : Bool, ∀ k, k < 16 →
    (toByte (bitOf a * 128 + bitOf b * 64 + k)).getLsbD 7 = a ∧ (toByte (bitOf a * 128 + bitOf b * 64 + k)).getLsbD 6 = b ∧
    (toByte (bitOf a * 128 + bitOf b * 64 + k)).toNat % 16 = k := by
  decide

/-- The first byte of a SEGMENT's body (R172). -/
theorem segmentFlags : ∀ a b c : Bool, ∀ k, k < 16 →
    (toByte (k * 16 + bitOf a * 8 + bitOf b * 4 + bitOf c * 2)).toNat / 16 = k ∧
    (toByte (k * 16 + bitOf a * 8 + bitOf b * 4 + bitOf c * 2)).getLsbD 3 = a ∧
    (toByte (k * 16 + bitOf a * 8 + bitOf b * 4 + bitOf c * 2)).getLsbD 2 = b ∧
    (toByte (k * 16 + bitOf a * 8 + bitOf b * 4 + bitOf c * 2)).getLsbD 1 = c := by
  decide

/-- A requester and a tag in one byte (R172). -/
theorem requesterTag {k tag : Nat} (hk : k < 32) (htag : tag < 8) :
    (toByte (k * 8 + tag)).toNat / 8 = k ∧ (toByte (k * 8 + tag)).toNat % 8 = tag := by
  rw [toByte_toNat (by omega)]
  omega

theorem settleKindOf_code (k : SettleKind) : settleKindOf k.code.toNat = some k := by cases k <;> rfl

theorem outcomeOf_code (o : Outcome) : outcomeOf o.code.toNat = some o := by cases o <;> rfl

theorem formatCode_eq (f : Format) : f.code = bitOf (f == .narrow) := by cases f <;> rfl

/-! ## The five bursts read back (R171, R172) -/

theorem decodeMark_encodeBurst (k : Nat) (m : MarkFields) : decodeMark (encodeBurst ⟨k, .mark m⟩) = some (.mark m) := by
  have hlength : (encodeBurst ⟨k, .mark m⟩).length = 11 := closed_length _
  rw [decodeMark, if_pos hlength]
  show (settleKindOf m.kind.code.toNat).map (fun kind => Body.mark
    { round := BitVec.ofNat 16 ((toByte (m.round.toNat / 256)).toNat * 256 + (toByte m.round.toNat).toNat),
      settled := BitVec.ofNat 16 ((toByte (m.settled.toNat / 256)).toNat * 256 + (toByte m.settled.toNat).toNat),
      kind := kind }) = _
  rw [settleKindOf_code, ofNat_pair, ofNat_pair]
  rfl

theorem decodeStatus_encodeBurst {k : Nat} {m : StatusFields}
    (h : m.requester < 32 ∧ m.tag < 8 ∧ m.sent < 65536 ∧ m.gone < 65536) :
    decodeStatus (encodeBurst ⟨k, .status m⟩) = some (.status m) := by
  obtain ⟨hrequester, htag, hsent, hgone⟩ := h
  obtain ⟨hrequester, htag⟩ := requesterTag hrequester htag
  have hlength : (encodeBurst ⟨k, .status m⟩).length = 14 := closed_length _
  rw [decodeStatus, if_pos hlength]
  show (outcomeOf m.outcome.code.toNat).map (fun o => Body.status
    { requester := (toByte (m.requester * 8 + m.tag)).toNat / 8, tag := (toByte (m.requester * 8 + m.tag)).toNat % 8,
      outcome := o, frame := BitVec.ofNat 16 ((toByte (m.frame.toNat / 256)).toNat * 256 + (toByte m.frame.toNat).toNat),
      sent := (toByte (m.sent / 256)).toNat * 256 + (toByte m.sent).toNat,
      gone := (toByte (m.gone / 256)).toNat * 256 + (toByte m.gone).toNat }) = _
  rw [outcomeOf_code, ofNat_pair, hrequester, htag, pair_toNat hsent, pair_toNat hgone]
  rfl

/-- The bytes a STATE carries after its settle kind. -/
def stateTail (m : StateFields) : List Byte :=
  encodeFrame? m.ready ++ encodeFrame? m.shown ++ (match m.offer with | some o => encodeOffer o | none => [])

/-- The flag byte of a STATE. -/
def stateFlagByte (m : StateFields) : Byte :=
  toByte (bitOf m.source * 128 + bitOf m.sink * 64 + bitOf m.ready.isSome * 32 + bitOf m.shown.isSome * 16 +
    bitOf m.offer.isSome * 8)

theorem burstBytes_state (k : Nat) (m : StateFields) : burstBytes ⟨k, .state m⟩ =
    [toByte (4 * 32 + k), toByte 2, toByte (m.digest.toNat / 256), toByte m.digest.toNat, stateFlagByte m,
      toByte (m.settled.toNat / 256), toByte m.settled.toNat, m.kind.code] ++ stateTail m := by
  obtain ⟨digest, source, sink, settled, kind, ready, shown, offer⟩ := m
  cases ready <;> cases shown <;> cases offer <;> rfl

theorem stateTail_length (m : StateFields) : (stateTail m).length =
    2 * bitOf m.ready.isSome + 2 * bitOf m.shown.isSome + 3 * bitOf m.offer.isSome := by
  unfold stateTail
  cases m.ready <;> cases m.shown <;> cases m.offer <;> rfl

theorem state_length (k : Nat) (m : StateFields) : (encodeBurst ⟨k, .state m⟩).length =
    8 + 2 * bitOf m.ready.isSome + 2 * bitOf m.shown.isSome + 3 * bitOf m.offer.isSome + 4 := by
  rw [encodeBurst_eq, closed_length, burstBytes_state, List.length_append, stateTail_length]
  simp only [List.length_cons, List.length_nil]
  omega

section
variable (k : Nat) (m : StateFields)

theorem state_ready : (if m.ready.isSome then some (frameAt (encodeBurst ⟨k, .state m⟩) 8) else none) = m.ready := by
  obtain ⟨digest, source, sink, settled, kind, ready, shown, offer⟩ := m
  cases ready with
  | none => rfl
  | some x => exact congrArg some (ofNat_pair x)

theorem state_shown : (if m.shown.isSome then some (frameAt (encodeBurst ⟨k, .state m⟩) (8 + 2 * bitOf m.ready.isSome)) else none) =
    m.shown := by
  obtain ⟨digest, source, sink, settled, kind, ready, shown, offer⟩ := m
  cases shown with
  | none => rfl
  | some x => cases ready <;> exact congrArg some (ofNat_pair x)

/-- An offer is read back from its three bytes. -/
theorem decodeOffer_of_bytes {bs : List Byte} {i : Nat} {o : Offer} (h : o.stream < 16)
    (h₀ : bs.getD i 0 = toByte (bitOf o.frame.isNone * 128 + bitOf o.published * 64 + o.stream))
    (h₁ : bs.getD (i + 1) 0 = toByte ((o.frame.getD 0).toNat / 256)) (h₂ : bs.getD (i + 2) 0 = toByte (o.frame.getD 0).toNat) :
    decodeOffer bs i = o := by
  obtain ⟨hnone, hpublished, hstream⟩ := offerFlags o.frame.isNone o.published o.stream h
  have hframe : frameAt bs (i + 1) = o.frame.getD 0 := by
    rw [frameAt, pairAt, byteAt, byteAt, h₁, h₂, ofNat_pair]
  rw [decodeOffer, hframe, byteAt, bitAt, bitAt, h₀, hnone, hpublished, hstream]
  obtain ⟨stream, frame, published⟩ := o
  cases frame <;> rfl

theorem state_offer (h : ∀ o, m.offer = some o → o.stream < 16) :
    (if m.offer.isSome then some (decodeOffer (encodeBurst ⟨k, .state m⟩) (8 + 2 * bitOf m.ready.isSome + 2 * bitOf m.shown.isSome))
      else none) = m.offer := by
  obtain ⟨digest, source, sink, settled, kind, ready, shown, offer⟩ := m
  cases offer with
  | none => rfl
  | some o => cases ready <;> cases shown <;> exact congrArg some (decodeOffer_of_bytes (h o rfl) rfl rfl rfl)

end

/-- A STATE is read back, whatever optional fields it carries. -/
theorem decodeState_encodeBurst {k : Nat} {m : StateFields} (hsink : m.sink = false → m.ready = none ∧ m.shown = none)
    (hsource : m.offer.isSome = m.source) (hoffer : ∀ o, m.offer = some o → o.stream < 16) :
    decodeState (encodeBurst ⟨k, .state m⟩) = some (.state m) := by
  obtain ⟨hflag₇, hflag₆, hflag₅, hflag₄, hflag₃⟩ := stateFlags m.source m.sink m.ready.isSome m.shown.isSome m.offer.isSome
  have h₇ : bitAt (encodeBurst ⟨k, .state m⟩) 4 7 = m.source := hflag₇
  have h₆ : bitAt (encodeBurst ⟨k, .state m⟩) 4 6 = m.sink := hflag₆
  have h₅ : bitAt (encodeBurst ⟨k, .state m⟩) 4 5 = m.ready.isSome := hflag₅
  have h₄ : bitAt (encodeBurst ⟨k, .state m⟩) 4 4 = m.shown.isSome := hflag₄
  have h₃ : bitAt (encodeBurst ⟨k, .state m⟩) 4 3 = m.offer.isSome := hflag₃
  have hkind : settleKindOf (byteAt (encodeBurst ⟨k, .state m⟩) 7) = some m.kind := settleKindOf_code m.kind
  have hdigest : BitVec.ofNat 16 (pairAt (encodeBurst ⟨k, .state m⟩) 2) = m.digest := ofNat_pair m.digest
  have hsettled : frameAt (encodeBurst ⟨k, .state m⟩) 5 = m.settled := ofNat_pair m.settled
  have hpresent : (m.sink || (!m.ready.isSome && !m.shown.isSome)) = true := by
    cases hs : m.sink with
    | true => rfl
    | false => rw [(hsink hs).1, (hsink hs).2]; rfl
  unfold decodeState
  simp only [h₇, h₆, h₅, h₄, h₃, hkind, hdigest, hsettled, state_ready, state_shown, state_offer k m hoffer, hpresent,
    state_length, hsource.symm, beq_self_eq_true, decide_true, Bool.and_self, if_true, Option.map_some]
  rw [hsource]

/-! ### A SEGMENT -/

/-- The bytes of a SEGMENT before its payload. -/
def segmentFront (k : Nat) (m : SegmentFields) : List Byte :=
  [toByte ((if m.repair.isSome then 3 else 5) * 32 + k), toByte 3,
    toByte (m.piece.stream * 16 + m.piece.format.code * 8 + bitOf m.piece.fill * 4 + bitOf m.repair.isSome * 2),
    toByte (m.piece.frame.toNat / 256), toByte m.piece.frame.toNat, toByte (m.piece.row / 256), toByte m.piece.row,
    toByte m.piece.index, toByte (m.piece.count - 1)] ++
    (match m.repair with | some r => [toByte (r.requester * 8 + r.tag)] | none => [])

/-- The payload of a SEGMENT; a fill has none. -/
def segmentPayload (m : SegmentFields) : List Byte := if m.piece.fill then [] else m.piece.payload

theorem burstBytes_segment (k : Nat) (m : SegmentFields) :
    burstBytes ⟨k, .segment m⟩ = segmentFront k m ++ segmentPayload m := by
  obtain ⟨p, repair⟩ := m
  cases repair <;> rfl

theorem segmentFront_length (k : Nat) (m : SegmentFields) : (segmentFront k m).length = 9 + bitOf m.repair.isSome := by
  obtain ⟨p, repair⟩ := m
  cases repair <;> rfl

theorem segment_length (k : Nat) (m : SegmentFields) :
    (encodeBurst ⟨k, .segment m⟩).length = 9 + bitOf m.repair.isSome + (segmentPayload m).length + 4 := by
  rw [encodeBurst_eq, closed_length, burstBytes_segment, List.length_append, segmentFront_length]

theorem segment_payload (k : Nat) (m : SegmentFields) :
    ((encodeBurst ⟨k, .segment m⟩).drop (9 + bitOf m.repair.isSome)).take (segmentPayload m).length = segmentPayload m := by
  rw [encodeBurst_eq, closed, burstBytes_segment, List.append_assoc, List.drop_left' (segmentFront_length k m), List.take_left]

theorem segment_repair {k : Nat} {m : SegmentFields} (h : ∀ r, m.repair = some r → r.requester < 32 ∧ r.tag < 8) :
    (if m.repair.isSome then some { requester := byteAt (encodeBurst ⟨k, .segment m⟩) 9 / 8,
                                    tag := byteAt (encodeBurst ⟨k, .segment m⟩) 9 % 8 } else none) = m.repair := by
  obtain ⟨p, repair⟩ := m
  cases repair with
  | none => rfl
  | some r =>
    obtain ⟨hrequester, htag⟩ := requesterTag (h r rfl).1 (h r rfl).2
    show some (RepairMark.mk ((toByte (r.requester * 8 + r.tag)).toNat / 8) ((toByte (r.requester * 8 + r.tag)).toNat % 8)) = some r
    rw [hrequester, htag]

theorem format_of_code (f : Format) : (if (f == .narrow) = true then Format.narrow else .wide) = f := by
  cases f <;> rfl

/-- A SEGMENT is read back, with the payload of R7 after its front. -/
theorem decodeSegment_encodeBurst {img : Image} {k : Nat} {m : SegmentFields} (h : Burst.Sendable ⟨k, .segment m⟩ img) :
    decodeSegment img (encodeBurst ⟨k, .segment m⟩) = some (.segment m) := by
  obtain ⟨-, hstream, hrow, hindex, hidentity, hcount, hcount₁, hcount₂, hformat, hpayload, hrepair⟩ := h
  obtain ⟨hs, h₃, h₂, h₁⟩ := segmentFlags (m.piece.format == .narrow) m.piece.fill m.repair.isSome m.piece.stream hstream
  rw [← formatCode_eq] at hs h₃ h₂ h₁
  have hs : segmentStream (encodeBurst ⟨k, .segment m⟩) = m.piece.stream := hs
  have h₃ : bitAt (encodeBurst ⟨k, .segment m⟩) 2 3 = (m.piece.format == .narrow) := h₃
  have h₂ : bitAt (encodeBurst ⟨k, .segment m⟩) 2 2 = m.piece.fill := h₂
  have h₁ : segmentRepair (encodeBurst ⟨k, .segment m⟩) = m.repair.isSome := h₁
  have hframe : frameAt (encodeBurst ⟨k, .segment m⟩) 3 = m.piece.frame := ofNat_pair m.piece.frame
  have hrowAt : coordinateAt (encodeBurst ⟨k, .segment m⟩) 5 = m.piece.row :=
    (congrArg (· % 4096) (pair_toNat (by omega))).trans (Nat.mod_eq_of_lt hrow)
  have hindexAt : byteAt (encodeBurst ⟨k, .segment m⟩) 7 % 16 = m.piece.index :=
    (congrArg (· % 16) (toByte_toNat (by omega))).trans (Nat.mod_eq_of_lt hindex)
  have hcountAt : byteAt (encodeBurst ⟨k, .segment m⟩) 8 + 1 = m.piece.count :=
    (congrArg (· + 1) (toByte_toNat (by omega))).trans (Nat.sub_add_cancel hcount₁)
  have hlength : (if m.piece.fill then 0 else payloadLength m.piece.format m.piece.count) = (segmentPayload m).length := by
    rw [segmentPayload]
    cases hfill : m.piece.fill with
    | true => rfl
    | false => exact (if_neg (hfill ▸ Bool.false_ne_true) ▸ hpayload).symm
  have hpayloadAt : segmentPayload m = m.piece.payload := by
    rw [segmentPayload]
    cases hfill : m.piece.fill with
    | true => exact (if_pos hfill ▸ hpayload).symm
    | false => rfl
  have hpixels : (m.piece.count == (img.stream m.piece.stream).piecePixels m.piece.index) = true := beq_iff_eq.2 hcount
  have hformatAt : (m.piece.format == (img.stream m.piece.stream).format) = true := beq_iff_eq.2 hformat
  unfold decodeSegment
  simp only [hs, h₃, h₂, h₁, hframe, hrowAt, hindexAt, hcountAt, format_of_code, hlength, segment_length, hidentity, hpixels,
    hformatAt, segment_payload, segment_repair hrepair, decide_true, Bool.and_self, if_true]
  rw [hpayloadAt]

theorem segmentPayload_length {img : Image} {k : Nat} {m : SegmentFields} (h : Burst.Sendable ⟨k, .segment m⟩ img) :
    (segmentPayload m).length ≤ 512 := by
  obtain ⟨-, -, -, -, -, -, -, hcount, -, hpayload, -⟩ := h
  rw [segmentPayload]
  split
  next => exact Nat.zero_le _
  next hfill =>
    rw [if_neg hfill] at hpayload
    rw [hpayload]
    cases m.piece.format with
    | wide => show 2 * m.piece.count ≤ 512; omega
    | narrow => show (3 * m.piece.count + 1) / 2 ≤ 512; omega

/-! ### A REQUEST -/

/-- A range is read back from its three bytes. -/
theorem decodeRange_of_bytes {bs : List Byte} {i : Nat} {r : RowRange} (hfirst : r.first < 4096) (hcount : r.count < 256)
    (h₀ : bs.getD (10 + 3 * i) 0 = toByte (r.first / 256)) (h₁ : bs.getD (10 + 3 * i + 1) 0 = toByte r.first)
    (h₂ : bs.getD (12 + 3 * i) 0 = toByte r.count) : decodeRange bs i = r := by
  rw [decodeRange, coordinateAt, pairAt, byteAt, byteAt, byteAt, h₀, h₁, h₂, pair_toNat (by omega), toByte_toNat hcount,
    Nat.mod_eq_of_lt hfirst]

/-- The ranges that follow `j` earlier ones are read back, whatever follows them. -/
theorem decodeRanges (post : List Byte) : ∀ (l : List RowRange) (pre : List Byte) (j : Nat),
    (∀ r ∈ l, r.first < 4096 ∧ r.count < 256) → pre.length = 10 + 3 * j →
      (List.range' j l.length).map (decodeRange (pre ++ (l.flatMap encodeRange ++ post))) = l := by
  intro l
  induction l with
  | nil => exact fun _ _ _ _ => rfl
  | cons r l ih =>
    intro pre j hr hpre
    obtain ⟨hfirst, hcount⟩ := hr r List.mem_cons_self
    have hbytes (d : Nat) : (pre ++ ((r :: l).flatMap encodeRange ++ post)).getD (10 + 3 * j + d) 0 =
        (encodeRange r ++ (l.flatMap encodeRange ++ post)).getD d 0 := by
      rw [List.getD_append_right _ _ _ _ (by omega), hpre, Nat.add_sub_cancel_left, List.flatMap_cons, List.append_assoc]
    have hrest : pre ++ ((r :: l).flatMap encodeRange ++ post) = pre ++ encodeRange r ++ (l.flatMap encodeRange ++ post) := by
      rw [List.flatMap_cons, List.append_assoc, List.append_assoc]
    rw [List.length_cons, List.range'_succ, List.map_cons,
      decodeRange_of_bytes hfirst hcount (hbytes 0) (hbytes 1) ((congrArg (List.getD _ · 0) (by omega)).trans (hbytes 2)), hrest,
      ih (pre ++ encodeRange r) (j + 1) (fun r h => hr r (List.mem_cons_of_mem _ h))
        (by rw [List.length_append, hpre]; show 10 + 3 * j + 3 = _; omega)]

/-- The bytes of a REQUEST before its ranges. -/
def requestFront (k : Nat) (m : RequestFields) : List Byte :=
  [toByte (2 * 32 + k), toByte 4, toByte (m.stream * 16 + m.tag), toByte m.ranges.length, toByte (m.frame.toNat / 256),
    toByte m.frame.toNat, toByte (m.firstColumn / 256), toByte m.firstColumn, toByte (m.lastColumn / 256), toByte m.lastColumn]

theorem burstBytes_request (k : Nat) (m : RequestFields) :
    burstBytes ⟨k, .request m⟩ = requestFront k m ++ m.ranges.flatMap encodeRange := rfl

theorem request_length (k : Nat) (m : RequestFields) : (encodeBurst ⟨k, .request m⟩).length = 14 + 3 * m.ranges.length := by
  rw [encodeBurst_eq, closed_length, burstBytes_request, List.length_append, length_flatMap_of_const (f := encodeRange) (n := 3) (fun _ => rfl)]
  show 10 + _ + 4 = _
  omega

/-- A REQUEST is read back, with its 1 to 4 ranges. -/
theorem decodeRequest_encodeBurst {img : Image} {k : Nat} {m : RequestFields} (h : Burst.Sendable ⟨k, .request m⟩ img) :
    decodeRequest (encodeBurst ⟨k, .request m⟩) = some (.request m) := by
  obtain ⟨-, htag, hstream, hfirst, hlast, hlow, hhigh, hranges⟩ := h
  have hcount : byteAt (encodeBurst ⟨k, .request m⟩) 3 = m.ranges.length := toByte_toNat (by omega)
  have hbyte : byteAt (encodeBurst ⟨k, .request m⟩) 2 = m.stream * 16 + m.tag := toByte_toNat (by omega)
  have hframe : frameAt (encodeBurst ⟨k, .request m⟩) 4 = m.frame := ofNat_pair m.frame
  have hfirstAt : coordinateAt (encodeBurst ⟨k, .request m⟩) 6 = m.firstColumn :=
    (congrArg (· % 4096) (pair_toNat (by omega))).trans (Nat.mod_eq_of_lt hfirst)
  have hlastAt : coordinateAt (encodeBurst ⟨k, .request m⟩) 8 = m.lastColumn :=
    (congrArg (· % 4096) (pair_toNat (by omega))).trans (Nat.mod_eq_of_lt hlast)
  have hrangesAt : (List.range m.ranges.length).map (decodeRange (encodeBurst ⟨k, .request m⟩)) = m.ranges := by
    rw [List.range_eq_range', encodeBurst_eq, closed, burstBytes_request, List.append_assoc]
    exact decodeRanges _ m.ranges (requestFront k m) 0 hranges rfl
  have htagAt : (m.stream * 16 + m.tag) % 8 = m.tag := by omega
  have hstreamAt : (m.stream * 16 + m.tag) / 16 = m.stream := by omega
  unfold decodeRequest
  simp only [hcount, hbyte, hframe, hfirstAt, hlastAt, hrangesAt, htagAt, hstreamAt, request_length, hlow, hhigh, decide_true,
    beq_self_eq_true, Bool.and_self, if_true]

/-! ### All five -/

theorem decodeBody_encodeBurst {img : Image} {b : Burst} (h : b.Sendable img) : decodeBody img (encodeBurst b) = some b.body := by
  obtain ⟨k, body⟩ := b
  rw [decodeBody, encodeBurst_kind]
  cases body with
  | mark m => exact decodeMark_encodeBurst k m
  | state m => exact decodeState_encodeBurst h.2.1 h.2.2.1 h.2.2.2
  | segment m => exact decodeSegment_encodeBurst h
  | request m => exact decodeRequest_encodeBurst h
  | status m => exact decodeStatus_encodeBurst h.2

theorem classFits_encodeBurst {img : Image} {b : Burst} (h : b.Sendable img) : classFits (encodeBurst b) = true := by
  obtain ⟨k, body⟩ := b
  rw [classFits, encodeBurst_kind, encodeBurst_class h.1]
  cases body with
  | mark m => rfl
  | state m => rfl
  | segment m =>
    obtain ⟨-, hstream, -⟩ := h
    have hrepair := (segmentFlags (m.piece.format == .narrow) m.piece.fill m.repair.isSome m.piece.stream hstream).2.2.2
    rw [← formatCode_eq] at hrepair
    have hrepair : segmentRepair (encodeBurst ⟨k, .segment m⟩) = m.repair.isSome := hrepair
    show ((if m.repair.isSome then 3 else 5) == (if segmentRepair (encodeBurst ⟨k, .segment m⟩) then 3 else 5)) = true
    rw [hrepair, beq_self_eq_true]
  | request m => rfl
  | status m => rfl

/-- A STATE that offers NONE carries 0000h as the offered frame (R171). -/
theorem offer_none_bytes {k : Nat} {m : StateFields} {a : Nat} {published : Bool} (h : m.offer = some ⟨a, none, published⟩) :
    ((encodeBurst ⟨k, .state m⟩).drop ((encodeBurst ⟨k, .state m⟩).length - 6)).take 2 = [0, 0] := by
  obtain ⟨front, hfront⟩ : ∃ front, burstBytes ⟨k, .state m⟩ = front ++ [0, 0] := by
    have hzero : toPair (0 : Frame).toNat = [0, 0] := by decide
    have hoffer : encodeOffer ⟨a, none, published⟩ = [toByte (bitOf true * 128 + bitOf published * 64 + a)] ++ [0, 0] :=
      congrArg (_ :: ·) hzero
    rw [burstBytes_state, stateTail, h]
    dsimp only
    rw [hoffer, ← List.append_assoc, ← List.append_assoc]
    exact ⟨_, rfl⟩
  rw [encodeBurst_eq, closed_length, closed, hfront, List.append_assoc,
    List.drop_left' (by rw [List.length_append]; exact (Nat.add_sub_cancel (n := front.length) (m := 6)).symm)]
  rfl

/-- Settles O23: the check word closes the bytes of R170, and each field of R171 and R172 is found where its kind puts it. -/
theorem burstsReadBack : Obligations.BurstsReadBack := by
  intro img b h
  refine ⟨checkAgrees_closed _, classFits_encodeBurst h, encodeBurst_sender h.1, decodeBody_encodeBurst h, ?_, ?_⟩
  · obtain ⟨k, body⟩ := b
    cases body with
    | mark m => exact closed_length _
    | state m =>
      have hready := bitOf_le m.ready.isSome
      have hshown := bitOf_le m.shown.isSome
      have hoffer := bitOf_le m.offer.isSome
      simp only [state_length]
      omega
    | segment m =>
      have hpayload := segmentPayload_length h
      have hrepair := bitOf_le m.repair.isSome
      simp only [segment_length]
      omega
    | request m => exact request_length k m
    | status m => exact closed_length _
  · rintro m a published hbody hoffer
    obtain ⟨k, body⟩ := b
    obtain rfl : body = .state m := hbody
    exact offer_none_bytes hoffer

/-! ## The readback outcome (R25, R26, R32) -/

theorem compareBytes_cons (a b : Byte) (l m : List Byte) :
    compareBytes (a :: l) (b :: m) = if a = b then compareBytes l m else .fault := rfl

/-- A readback is clean when what was driven is the beginning of what was heard, and a fault otherwise. -/
theorem compareBytes_eq : ∀ l m : List Byte, compareBytes l m = if l <+: m then .clean else .fault
  | [], m => by rw [if_pos List.nil_prefix]; rfl
  | a :: l, [] => by rw [if_neg (by simp)]; rfl
  | a :: l, b :: m => by
    rw [compareBytes_cons, compareBytes_eq l m]
    by_cases hab : a = b
    · simp only [hab, if_true, List.cons_prefix_cons, true_and]
    · rw [if_neg hab, if_neg (fun h => hab (List.cons_prefix_cons.1 h).1)]

theorem compareBytes_of_ne {a b : Byte} (h : a ≠ b) (l m : List Byte) : compareBytes (a :: l) (b :: m) = .fault := if_neg h

theorem readback_cons (contested : Bool) (a b : Byte) (l m : List Byte) : readback contested (a :: l) (b :: m) =
    if contested && b.toNat < a.toNat then .arbitrationLost else compareBytes (a :: l) (b :: m) := rfl

theorem readback_of_not_lower {contested : Bool} {a b : Byte} (h : ¬ b.toNat < a.toNat) (l m : List Byte) :
    readback contested (a :: l) (b :: m) = compareBytes (a :: l) (b :: m) := by
  rw [readback_cons, decide_eq_false h, Bool.and_false]
  rfl

theorem readback_clean_iff (contested : Bool) (l m : List Byte) : readback contested l m = .clean ↔ l <+: m := by
  have hcompare (l m : List Byte) : compareBytes l m = .clean ↔ l <+: m := by
    rw [compareBytes_eq]
    split <;> simp_all
  cases l with
  | nil => exact hcompare [] m
  | cons a l =>
    cases m with
    | nil => exact hcompare (a :: l) []
    | cons b m =>
      by_cases hlower : b.toNat < a.toNat
      · have hne : ¬ (a :: l) <+: (b :: m) := fun h => by
          obtain rfl := (List.cons_prefix_cons.1 h).1
          exact Nat.lt_irrefl _ hlower
        rw [readback_cons, decide_eq_true hlower]
        cases contested with
        | true => exact iff_of_false (fun h => nomatch h) hne
        | false => exact hcompare (a :: l) (b :: m)
      · rw [readback_of_not_lower hlower, hcompare]

/-- Settles O24. -/
theorem arbitrationIsByFieldValue : Obligations.ArbitrationIsByFieldValue := by
  refine ⟨fun a b l m h => ?_, fun a b l m h => ?_, fun a b l m h => ?_, readback_clean_iff, fun contested a l m h => ?_,
    fun contested a l => ?_, fun b h => ?_⟩
  · rw [readback_cons, decide_eq_true h]
    rfl
  · rw [readback_of_not_lower (Nat.not_lt_of_gt h), compareBytes_of_ne (fun hab => Nat.lt_irrefl _ (hab ▸ h))]
  · exact compareBytes_of_ne h l m
  · rw [readback_of_not_lower (Nat.lt_irrefl _), compareBytes_eq, if_neg h]
  · rfl
  · exact (encodeBurst_head h).trans (by rw [Nat.mul_comm])

end Sys2Proof.Machine
end

section
/-! Burst starts, the ends of positions, and what a MEMBER sends at the start of one. -/

namespace Sys2Proof.Machine

/-! ## Burst starts (R16, R17, R21, R48) -/

theorem takeBurstStart_of_deaf {s : State} (h : s.station.state = .loading ∨ s.station.state = .isolated) :
    takeBurstStart s = s := by
  rcases h with h | h <;> simp only [takeBurstStart, h]

theorem takeBurstStart_of_listen {s : State} (h : s.station.state = .listen) : takeBurstStart s =
    if s.bus.aligned then hearStart (s.setStation { s.station with silentExpiries := 0 })
    else (s.setStation { s.station with silentExpiries := 0 }).setBus { s.bus with hearing := some ⟨true, false⟩ } := by
  simp only [takeBurstStart, h]
  rfl

theorem takeBurstStart_of_member {s : State} (h : s.station.state = .member) :
    takeBurstStart s = if s.bus.driving.isSome then s else hearStart s := by
  simp only [takeBurstStart, h]

theorem hearStart_tail {s : State} (h : s.bus.position = .tail) : hearStart s =
    s.setBus { s.bus with position := .mark, positionHeld := true, hearing := some ⟨true, false⟩ } := by
  simp only [hearStart, h]

theorem hearStart_numbered {s : State} {k : Nat} (h : s.bus.position = .numbered k) : hearStart s =
    s.setBus { s.bus with positionHeld := true, hearing := some ⟨false, s.bus.positionHeld⟩ } := by
  simp only [hearStart, h]

theorem hearStart_mark {s : State} (h : s.bus.position = .mark) : hearStart s =
    s.setBus { s.bus with positionHeld := true, hearing := some (s.bus.hearing.getD ⟨false, false⟩) } := by
  simp only [hearStart, h]

/-- A start heard at an aligned station that does not drive reaches its position counter. -/
theorem takeBurstStart_hearStart {s r : State}
    (h : (s.station.state = .listen ∧ s.bus.aligned = true ∧ r = s.setStation { s.station with silentExpiries := 0 }) ∨
      (s.station.state = .member ∧ s.bus.driving = none ∧ r = s)) : takeBurstStart s = hearStart r ∧ r.bus = s.bus := by
  rcases h with ⟨hlisten, haligned, rfl⟩ | ⟨hmember, hsilent, rfl⟩
  · exact ⟨by rw [takeBurstStart_of_listen hlisten, if_pos haligned], rfl⟩
  · exact ⟨by rw [takeBurstStart_of_member hmember, hsilent]; rfl, rfl⟩

/-- Settles O25. -/
theorem burstStartByPosition : Obligations.BurstStartByPosition := by
  refine ⟨fun s h => ?_, fun s hlisten hunaligned => ?_, fun s hmember hdriving => ?_, fun s r h => ?_⟩
  · exact congrArg _ (takeBurstStart_of_deaf h)
  · refine congrArg _ ((takeBurstStart_of_listen hlisten).trans ?_)
    rw [hunaligned]
    rfl
  · refine congrArg _ ((takeBurstStart_of_member hmember).trans ?_)
    rw [if_pos (Option.isSome_iff_ne_none.2 hdriving)]
  · obtain ⟨hstart, hbus⟩ := takeBurstStart_hearStart h
    refine ⟨fun hp => ?_, fun k hp => ?_, fun hp hquiet => ?_, fun x hp hhearing => ?_⟩
    · exact congrArg _ (hstart.trans (by rw [hearStart_tail (hbus ▸ hp), hbus]))
    · exact congrArg _ (hstart.trans (by rw [hearStart_numbered (hbus ▸ hp), hbus]))
    · exact congrArg _ (hstart.trans (by rw [hearStart_mark (hbus ▸ hp), hbus, hquiet]; rfl))
    · refine congrArg _ (hstart.trans ?_)
      rw [hearStart_mark (hbus ▸ hp), hbus, hhearing, Option.getD_some, ← hhearing]

/-! ## The position counter (R15, R16) -/

section
variable {s : State}

theorem not_isolated_of_onTheBus (h : s.onTheBus = true) : s.isIsolated = false := afterBurst_not_isolated h

theorem endPosition_eq (hp : s.bus.position ≠ .tail) (heard : List Byte) (o : Orders) : endPosition heard o s =
    if (cutBurst heard o s).isIsolated then cutBurst heard o s else advancePosition (cutBurst heard o s) := by
  unfold endPosition
  split
  next h => exact absurd h hp
  next => rfl

theorem takePositionEnd_of_onTheBus (h : s.onTheBus = true) (heard : List Byte) (o : Orders) :
    takePositionEnd heard o s = endPosition heard o s := if_pos h

theorem takePositionEnd_of_tail (h : s.onTheBus = true) (hp : s.bus.position = .tail) (heard : List Byte) (o : Orders) :
    takePositionEnd heard o s = s := by
  rw [takePositionEnd_of_onTheBus h, endPosition, hp]

theorem takePositionEnd_of_deaf (h : s.station.state = .loading ∨ s.station.state = .isolated) (heard : List Byte)
    (o : Orders) : takePositionEnd heard o s = s := by
  have hon : s.onTheBus = false := by
    rw [← Bool.not_eq_true]
    exact fun hon => not_deaf_of_onTheBus hon h
  have hlisten : s.isListen = false := by
    rcases h with h | h <;> rw [State.isListen, h] <;> rfl
  rw [takePositionEnd, hon, hlisten]
  rfl

theorem takePositionEnd_of_unaligned (hlisten : s.station.state = .listen) (hunaligned : s.bus.aligned = false)
    (heard : List Byte) (o : Orders) : takePositionEnd heard o s = s.setBus { s.bus with hearing := none } := by
  have hon : s.onTheBus = false := by
    rw [State.onTheBus, hunaligned, Bool.and_false, Bool.or_false, isMember_eq_false_iff, hlisten]
    simp
  rw [takePositionEnd, hon, if_neg Bool.false_ne_true, if_pos (isListen_iff.2 hlisten)]

theorem cutBurst_of_quiet (h : s.bus.hearing = none) (heard : List Byte) (o : Orders) : cutBurst heard o s = s := by
  rw [cutBurst, h]

/-- The end of a position in which nothing is heard. -/
theorem takePositionEnd_of_quiet (hon : s.onTheBus = true) (hquiet : s.bus.hearing = none) (hp : s.bus.position ≠ .tail)
    (heard : List Byte) (o : Orders) : takePositionEnd heard o s = advancePosition s := by
  rw [takePositionEnd_of_onTheBus hon, endPosition_eq hp, cutBurst_of_quiet hquiet, not_isolated_of_onTheBus hon]
  rfl

/-! ## What a position brings (R28 to R31) -/

/-- A burst begun in a numbered position. -/
theorem send_numbered {k : Nat} (h : s.bus.position = .numbered k) (i : SentItem) (c : Bool) (b : Body) :
    send i c b s = s.setBus { s.bus with
      positionHeld := true, hearing := some ⟨false, s.bus.positionHeld⟩, driving := some ⟨i, c, ownBurst s b⟩ } := by
  rw [send, hearStart_numbered h]
  rfl

theorem sendStream_cons {p : Piece} {rest : List Piece} (h : s.publishQueue = p :: rest) :
    sendStream s = send .fresh false (.segment ⟨p, none⟩) s := by simp only [sendStream, h]

theorem sendStream_slot {m : SegmentFields} (h : s.publishQueue = []) (hslot : s.responder.slot = some m) :
    sendStream s = send .repair false (.segment m) s := by simp only [sendStream, h, hslot]

theorem sendStream_silent (h : s.publishQueue = []) (hslot : s.responder.slot = none) : sendStream s = s := by
  simp only [sendStream, h, hslot]

theorem sendOpen_status {m : StatusFields} {rest : List StatusFields} (h : s.responder.replies = m :: rest) :
    sendOpen s = send .status true (.status m) s := by simp only [sendOpen, h]

theorem sendOpen_request {e : RepairEntry} (h : s.responder.replies = []) (hpending : pendingEntry s = some e) :
    sendOpen s = send (.request e.tag) true (.request (requestOf e)) s := by simp only [sendOpen, h, hpending]

theorem sendOpen_slot {m : SegmentFields} (h : s.responder.replies = []) (hpending : pendingEntry s = none)
    (hslot : s.responder.slot = some m) : sendOpen s = send .repair true (.segment m) s := by
  simp only [sendOpen, h, hpending, hslot]

theorem sendOpen_silent (h : s.responder.replies = []) (hpending : pendingEntry s = none) (hslot : s.responder.slot = none) :
    sendOpen s = s := by simp only [sendOpen, h, hpending, hslot]

theorem pendingEntry_eq_none_iff : pendingEntry s = none ↔ ∀ e ∈ s.requester.entries, e.state ≠ .composed := by
  simp [pendingEntry]

theorem beginPosition_state {k : Nat} (h : s.bus.position = .numbered k) (hk : k ≤ 32) : beginPosition s =
    if k = s.image.stationNumber + 1 then send .state false (.state (composeState s)) s else s := by
  simp only [beginPosition, h, hk, if_true]

theorem beginPosition_stream {k : Nat} (h : s.bus.position = .numbered k) (hlow : 32 < k) (hhigh : k ≤ 128) :
    beginPosition s = match s.image.mapEntry (k - 33), s.image.ownStream with
      | some a, some b => if a = b then sendStream s else s
      | _, _ => s := by
  simp only [beginPosition, h, Nat.not_le.2 hlow, hhigh, if_true, if_false] <;> rfl

theorem beginPosition_ownStream {k a : Nat} (h : s.bus.position = .numbered k) (hlow : 32 < k) (hhigh : k ≤ 128)
    (hmap : s.image.mapEntry (k - 33) = some a) (hown : s.image.ownStream = some a) : beginPosition s = sendStream s := by
  rw [beginPosition_stream h hlow hhigh, hmap, hown]
  exact if_pos rfl

theorem beginPosition_otherStream {k : Nat} (h : s.bus.position = .numbered k) (hlow : 32 < k) (hhigh : k ≤ 128)
    (hother : s.image.mapEntry (k - 33) = none ∨ s.image.mapEntry (k - 33) ≠ s.image.ownStream) : beginPosition s = s := by
  rw [beginPosition_stream h hlow hhigh]
  split
  next a b hmap hown =>
    refine if_neg fun hab => ?_
    rw [hmap, hown, hab] at hother
    simp at hother
  next => rfl

theorem beginPosition_open {k : Nat} (h : s.bus.position = .numbered k) (hlow : 128 < k) : beginPosition s = sendOpen s := by
  simp only [beginPosition, h, Nat.not_le.2 hlow, Nat.not_le.2 (Nat.lt_trans (by decide : 32 < 128) hlow), if_false]

/-- What a MEMBER sends does not move its position counter. -/
theorem beginPosition_position (s : State) : (beginPosition s).bus.position = s.bus.position := by
  have hsend {k : Nat} (h : s.bus.position = .numbered k) (i : SentItem) (c : Bool) (b : Body) :
      (send i c b s).bus.position = s.bus.position := by rw [send_numbered h]; rfl
  cases h : s.bus.position with
  | mark => rw [beginPosition, h]; exact h
  | tail => rw [beginPosition, h]; exact h
  | numbered k =>
    rw [← h]
    rcases Nat.lt_or_ge 32 k with hk | hk
    · rcases Nat.lt_or_ge 128 k with hk' | hk'
      · rw [beginPosition_open h hk']
        unfold sendOpen
        split
        · exact hsend h _ _ _
        · exact hsend h _ _ _
        · exact hsend h _ _ _
        · rfl
      · rw [beginPosition_stream h hk hk']
        split
        · split
          · unfold sendStream
            split
            · exact hsend h _ _ _
            · exact hsend h _ _ _
            · rfl
          · rfl
        · rfl
    · rw [beginPosition_state h hk]
      split
      · exact hsend h _ _ _
      · rfl

theorem advancePosition_position (s : State) : (advancePosition s).bus.position = s.bus.position.next := by
  rw [advancePosition_eq]
  split
  · exact beginPosition_position _
  · rfl

theorem advancePosition_of_member (h : s.isMember = true) : advancePosition s = beginPosition (nextPosition s) := if_pos h

theorem advancePosition_of_not_member (h : s.isMember = false) : advancePosition s = nextPosition s := by
  rw [advancePosition_eq, if_neg]
  exact fun hm => Bool.false_ne_true (h.symm.trans hm)

theorem next_of_lt {k : Nat} (h : k < 160) : (Position.numbered k).next = .numbered (k + 1) := if_pos h

end

/-! ## Cut-off bursts (R16, R22) -/

/-- The burst judged a check failure ends in the same way when it is taken whole and when it is cut off. -/
theorem cutBurst_of_hears {s : State} {heard' : List Byte} {opens : Bool} (h : Hears s heard' opens .checkFailure)
    (heard : List Byte) (o : Orders) : cutBurst heard o s = takeBurst heard' o s := by
  obtain ⟨hon, ⟨x, hhearing, -, hjudge⟩, hsilent⟩ := h
  simp only [cutBurst, takeBurst, hhearing, hon, if_true, endBurst, ownReadback, hsilent, hjudge, Option.map_none]
  rfl

theorem cutBurst_of_drives {s : State} {d : Driving} {heard : List Byte} {opens : Bool}
    (h : Drives s d heard opens .checkFailure) (o : Orders) : cutBurst heard o s = takeBurst heard o s := by
  obtain ⟨hmember, ⟨x, hhearing, -, hjudge⟩, -⟩ := h
  simp only [cutBurst, takeBurst, hhearing, onTheBus_of_member hmember, if_true, endBurst, hjudge]
  rfl

end Sys2Proof.Machine
end

section
/-! What an operation reports: the counters it may raise, and the events it appends. -/

namespace Sys2Proof.Machine

/-- From `s` to `t` only the counters `cs` may have been raised, and events were appended at most. -/
structure Reports (cs : List Counter) (s t : State) : Prop where
  length : t.port.counters.length = s.port.counters.length
  counters : ∀ d, d ∉ cs → t.counter d = s.counter d
  events : s.port.events <+: t.port.events

namespace Reports

variable {cs ds : List Counter} {s t u : State}

theorem refl : Reports cs s s := ⟨rfl, fun _ _ => rfl, List.prefix_rfl⟩

theorem trans (a : Reports cs s t) (b : Reports cs t u) : Reports cs s u :=
  ⟨b.length.trans a.length, fun d hd => (b.counters d hd).trans (a.counters d hd), a.events.trans b.events⟩

theorem widen (a : Reports ds s t) (h : ∀ d ∈ ds, d ∈ cs) : Reports cs s t :=
  ⟨a.length, fun d hd => a.counters d fun hd' => hd (h d hd'), a.events⟩

theorem of_port (h : t.port = s.port) : Reports cs s t :=
  ⟨by rw [h], fun d _ => by rw [State.counter, h]; rfl, by rw [h]⟩

theorem of_writes {fs : List Field} (w : OnlyWrites fs s t) (h : Field.port ∉ fs := by decide) : Reports cs s t :=
  of_port (w .port h)

theorem ite {p : Prop} [Decidable p] {g g' : State → State} (a : Reports cs s (g s)) (b : Reports cs s (g' s)) :
    Reports cs s (if p then g s else g' s) := by
  split
  · exact a
  · exact b

theorem foldl {α : Type} (g : State → α → State) (h : ∀ s a, Reports cs s (g s a)) (l : List α) : ∀ s, Reports cs s (l.foldl g s) := by
  induction l with
  | nil => exact fun _ => .refl
  | cons a l ih => exact fun s => (h s a).trans (ih _)

end Reports

/-- A raise leaves the other counters. -/
theorem counter_raise_of_ne {c d : Counter} (h : d ≠ c) (n : Nat) (s : State) : (raise c n s).counter d = s.counter d := by
  have hplace : c.place ≠ d.place := fun hp => h (Counter.place_injective c d hp).symm
  show (s.port.counters.set c.place _).getD d.place 0 = s.port.counters.getD d.place 0
  rw [List.getD_eq_getElem?_getD, List.getElem?_set_ne hplace, ← List.getD_eq_getElem?_getD]

theorem counter_raise_self {c : Counter} {n : Nat} {s : State} (h : s.port.counters.length = 22) :
    (raise c n s).counter c = saturate 65535 (s.counter c) n := (counter_raise c c n s h).trans (if_pos rfl)

theorem raise_reports (c : Counter) (n : Nat) (s : State) : Reports [c] s (raise c n s) :=
  ⟨raise_counters_length c n s, fun _ hd => counter_raise_of_ne (fun h => hd (List.mem_singleton.2 h)) n s, List.prefix_rfl⟩

theorem post_reports {cs : List Counter} (k : EventKind) (f : Frame) (d : Byte) (s : State) : Reports cs s (post k f d s) := by
  have hcounters := post_counters k f d s
  refine ⟨by rw [hcounters], fun c _ => by rw [State.counter, hcounters]; rfl, ?_⟩
  rcases post_record k f d s with ⟨-, -, h⟩ | ⟨-, h, -⟩
  · rw [h]
    exact List.prefix_append _ _
  · rw [h]

/-! ## The repair requester -/

section
variable {cs : List Counter}

theorem postFailure_reports (c : ConditionCode) (e : RepairEntry) (s : State) : Reports cs s (postFailure c e s) := by
  unfold postFailure
  split
  · exact post_reports _ _ _ _
  · exact .refl

theorem closeEntry_reports (c : ConditionCode) (e : RepairEntry) (s : State) : Reports cs s (closeEntry c e s) := by
  unfold closeEntry
  refine .trans ?_ (.of_writes (gapScan_writes _))
  refine .trans ?_ (.of_writes (setEntries_writes _ _))
  refine .trans ?_ (postFailure_reports _ _ _)
  exact .ite (g := fun s => s.setRequester _) (g' := id) (.of_writes (setRequester_writes _ _)) .refl

theorem ageEntry_reports (e : RepairEntry) (s : State) : Reports cs s (ageEntry e s) := by
  have hchange (f : RepairEntry → RepairEntry) : Reports cs s (changeEntry e.tag f s) := .of_writes (changeEntry_writes _ _ _)
  unfold ageEntry
  split
  · exact .refl
  split
  · split
    · exact hchange _
    · exact hchange _
  split
  · split
    · exact hchange _
    · exact closeEntry_reports _ _ _
  · exact hchange _

theorem requesterRoundStart_reports (s : State) : Reports cs s (requesterRoundStart s) :=
  .foldl _ (fun s e => ageEntry_reports e s) _ _

/-! ## The membership table -/

theorem ageMember_reports (s : State) (k : Nat) : Reports cs s (ageMember s k) := by
  have hset : Reports cs s (s.setMember k ((s.member k).aged s.image.absenceLimit)) := .of_writes (setMember_writes _ _ _)
  unfold ageMember
  dsimp only
  split
  · exact hset.trans (post_reports _ _ _ _)
  · exact hset

theorem tableRoundStart_reports (s : State) : Reports cs s (tableRoundStart s) := .foldl _ ageMember_reports _ _

end

/-! ## The capture unit -/

theorem checkPublished_reports {cs : List Counter} (s : State) : Reports cs s (checkPublished s) := .of_writes (checkPublished_writes s)

theorem postShapeFault_reports {cs : List Counter} (d : Byte) (s : State) : Reports cs s (postShapeFault d s) := by
  unfold postShapeFault
  split
  · exact .refl
  · exact (post_reports _ _ _ _).trans (.of_writes (setCapture_writes _ _))

theorem offerRow_reports (l : List Piece) (s : State) : Reports [.rowsWithheld] s (offerRow l s) :=
  .ite (g := fun s => s.setPublishQueue _) (.of_writes (setPublishQueue_writes _ _)) (raise_reports _ _ _)

theorem produceRow_reports (l : List Piece) (s : State) : Reports [.rowsWithheld] s (produceRow l s) := by
  unfold produceRow
  refine .trans ?_ (.of_writes (setCapture_writes _ _))
  exact (Reports.of_writes (setRing_writes _ _)).trans (offerRow_reports _ _)

theorem produceFillRow_reports (s : State) : Reports [.rowsWithheld, .fillPieces] s (produceFillRow s) :=
  ((produceRow_reports _ s).widen (by decide)).trans ((raise_reports _ _ _).widen (by decide))

theorem produceFillRows_reports (n : Nat) : ∀ s, Reports [.rowsWithheld, .fillPieces] s (produceFillRows n s) := by
  induction n with
  | zero => exact fun _ => .refl
  | succ n ih => exact fun s => (produceFillRow_reports s).trans (ih _)

theorem endCaptureWithFill_reports (s : State) : Reports [.rowsWithheld, .fillPieces] s (endCaptureWithFill s) :=
  (produceFillRows_reports _ s).trans (.of_writes (setCapture_writes _ _))

theorem loseInput_reports (s : State) : Reports [.rowsWithheld, .fillPieces] s (loseInput s) := by
  have hlost : Reports [.rowsWithheld, .fillPieces] s (s.setCapture { s.capture with input := .lost }) :=
    .of_writes (setCapture_writes _ _)
  unfold loseInput
  dsimp only
  split
  · refine .trans ?_ (checkPublished_reports _)
    refine .trans ?_ (post_reports _ _ _ _)
    exact (hlost.trans (endCaptureWithFill_reports _)).trans (.of_writes (setCapture_writes _ _))
  · exact hlost.trans (post_reports _ _ _ _)

theorem captureRoundStart_reports (s : State) : Reports [.rowsWithheld, .fillPieces] s (captureRoundStart s) := by
  have hsilent : Reports [.rowsWithheld, .fillPieces] s
      (s.setCapture { s.capture with silence := saturate Config.count8 s.capture.silence 1 }) := .of_writes (setCapture_writes _ _)
  unfold captureRoundStart
  dsimp only
  split
  · split
    · exact hsilent.trans (loseInput_reports _)
    · exact hsilent
  · exact .refl

/-! ## Settles -/

theorem straggle_reports (f : Frame) (d : Byte) (s : State) : Reports [.straggles] s (straggle f d s) :=
  (post_reports _ _ _ _).trans (raise_reports _ _ _)

theorem bankNotice_reports (a : Action) (f : Frame) (c : Bool) (s : State) : Reports [.straggles] s (bankNotice a f c s) := by
  have hopen (u : State) : Reports [.straggles] u (openCoverage u.openFrame u) := .of_writes (openCoverage_writes _ _)
  have hreopen (u : State) : Reports [.straggles] u (reopenBack u) := .of_writes (reopenBack_writes _)
  unfold bankNotice
  split
  · cases a with
    | commit =>
      unfold noticeAtOnce
      dsimp only
      split
      · exact (Reports.of_writes (setBanks_writes _ _)).trans (.of_writes (openCoverage_writes _ _))
      · exact (straggle_reports _ _ _).trans (hreopen _)
    | abandon => exact hreopen s
    | resync => exact hreopen s
    | join => exact .of_writes (openBackAtJoin_writes s)
  · cases a with
    | commit => exact (straggle_reports _ _ _).trans (.of_writes (openCoverage_writes _ _))
    | abandon => exact hopen s
    | resync => exact hopen s
    | join => exact hopen s

theorem notice_reports (a : Action) (f : Frame) (c w : Bool) (s : State) : Reports [.straggles] s (notice a f c w s) := by
  unfold notice
  refine (Reports.of_writes (recomputeEligibility_writes w s)).trans ?_
  refine (Reports.of_writes (sourceNotice_writes _)).trans ?_
  unfold sinkNotice
  split
  · refine .trans ?_ (.of_writes (overtakeEntries_writes _))
    exact (Reports.of_writes (discardLanding_writes _)).trans (bankNotice_reports _ _ _ _)
  · exact .refl

theorem settleCommit_reports (s : State) : Reports [.commitsTaken, .straggles] s (settleCommit s) :=
  .trans (.trans (.of_writes (advance_writes _ _ s)) ((raise_reports _ _ _).widen (by decide)))
    ((notice_reports _ _ _ _ _).widen (by decide))

theorem settleAbandon_reports (p : SettlePath) (s : State) : Reports [.abandonsTaken, .straggles] s (settleAbandon p s) := by
  refine .trans ?_ ((notice_reports _ _ _ _ _).widen (by decide))
  refine .trans ?_ (post_reports _ _ _ _)
  exact .trans (.of_writes (advance_writes _ _ s)) ((raise_reports _ _ _).widen (by decide))

theorem resync_reports (f : Frame) (k : SettleKind) (s : State) : Reports [.resyncs, .straggles] s (resync f k s) := by
  refine .trans ?_ ((notice_reports _ _ _ _ _).widen (by decide))
  refine .trans ?_ (post_reports _ _ _ _)
  exact .trans (.of_writes (advance_writes _ _ s)) ((raise_reports _ _ _).widen (by decide))

/-- The counters a settle may raise. -/
abbrev settleCounters : List Counter := [.commitsTaken, .abandonsTaken, .resyncs, .straggles]

theorem takeAhead_reports (path : SettlePath) (f : Frame) (k : SettleKind) (o : FrameOrder) (s : State) :
    Reports settleCounters s (takeAhead path f k o s) := by
  unfold takeAhead
  split
  · exact (settleCommit_reports s).widen (by decide)
  · exact (settleAbandon_reports path s).widen (by decide)
  · exact (resync_reports f _ s).widen (by decide)
  · exact (resync_reports f _ s).widen (by decide)
  · exact .refl
  · exact .refl

theorem settleRoundStart_reports (c : RoundContent) (s : State) : Reports settleCounters s (settleRoundStart c s) := by
  unfold settleRoundStart
  split
  · refine .trans (.of_writes (setSettle_writes _ _)) (t := raiseOpenAge s) ?_
    cases c with
    | nothing => exact .refl
    | received k m =>
      unfold takeContent takeMark
      dsimp only
      split
      · exact .refl
      · exact post_reports _ _ _ _
      · exact takeAhead_reports _ _ _ _ _
      · exact takeAhead_reports _ _ _ _ _
    | own m verdict =>
      unfold takeContent takeOwnMark
      dsimp only
      split
      · split
        · exact (settleCommit_reports _).widen (by decide)
        · exact (settleAbandon_reports _ _).widen (by decide)
        · exact .refl
      · exact .refl
  · cases c with
    | nothing => exact .refl
    | received k m => exact .of_writes (setSettle_writes _ _)
    | own m verdict => exact .refl

/-! ## Round starts -/

/-- The counters a round start may raise. -/
abbrev roundCounters : List Counter := [.rowsWithheld, .fillPieces, .commitsTaken, .abandonsTaken, .resyncs, .straggles]

/-- The counters the arrival of a round start may raise. -/
def arrivalCounters : RoundArrival → List Counter
  | .number => []
  | .ageing => []
  | .silence => [.rowsWithheld, .fillPieces]
  | .waits => []
  | .settle => settleCounters

theorem arrive_reports (c : RoundContent) (s : State) (a : RoundArrival) : Reports (arrivalCounters a) s (arrive c s a) := by
  cases a with
  | number => exact .of_writes (numberRoundStart_writes c s)
  | ageing => exact tableRoundStart_reports s
  | silence => exact captureRoundStart_reports s
  | waits => exact .ite (g := requesterRoundStart) (g' := id) (requesterRoundStart_reports s) .refl
  | settle => exact settleRoundStart_reports c s

theorem arrivals_report (c : RoundContent) (l : List RoundArrival) (s : State) :
    Reports roundCounters s (l.foldl (arrive c) s) := by
  refine .foldl _ (fun s a => (arrive_reports c s a).widen (?_ : ∀ d ∈ arrivalCounters a, d ∈ roundCounters)) l s
  cases a <;> decide

theorem roundArrivals_report (c : RoundContent) (o : Orders) (s : State) : Reports roundCounters s (roundArrivals c o s) :=
  (Reports.of_writes (restartMarkTimer_writes s)).trans (arrivals_report c _ _)

theorem countJoin_reports (s : State) : Reports roundCounters s (countJoin s) := by
  have hcount (n : Nat) : Reports roundCounters s (s.setStation { s.station with joinCount := n }) :=
    .of_writes (setStation_writes _ _)
  unfold countJoin
  dsimp only
  split
  · refine (hcount (s.station.joinCount + 1)).trans ?_
    unfold joinByCount enterMember
    dsimp only
    refine .trans ?_ ((notice_reports _ _ _ _ _).widen (by decide))
    refine .trans ?_ (post_reports _ _ _ _)
    exact (Reports.of_writes (setStation_writes _ _)).trans (.of_writes (setSettle_writes _ _))
  · exact hcount _

end Sys2Proof.Machine
end

section
/-! Round starts: what each arrival leaves to the others, whatever the order, and the ends of positions that cut a burst off. -/

namespace Sys2Proof.Machine

/-! ## Arrivals in any order -/

section
variable {α : Type} {g : State → α → State} {a₀ : α}

/-- Arrivals of which all but one keep what holds before it, and what holds after it. -/
theorem foldl_passes {P Q : State → Prop} (hP : ∀ u a, a ≠ a₀ → P u → P (g u a)) (hQ : ∀ u a, a ≠ a₀ → Q u → Q (g u a))
    (hone : ∀ u, P u → Q (g u a₀)) {l : List α} (hl : l.Nodup) (h : a₀ ∈ l) : ∀ s, P s → Q (l.foldl g s) := by
  have hrest : ∀ l : List α, a₀ ∉ l → ∀ s, Q s → Q (l.foldl g s) := by
    intro l
    induction l with
    | nil => exact fun _ _ hs => hs
    | cons a l ih =>
      intro h s hs
      rw [List.mem_cons, not_or] at h
      exact ih h.2 _ (hQ s a (Ne.symm h.1) hs)
  induction l with
  | nil => exact absurd h List.not_mem_nil
  | cons a l ih =>
    intro s hs
    rw [List.nodup_cons] at hl
    by_cases ha : a = a₀
    · subst ha
      exact hrest l hl.1 _ (hone s hs)
    · rcases List.mem_cons.1 h with h | h
      · exact absurd h.symm ha
      · exact ih hl.2 h _ (hP s a ha hs)

end

/-- What the arrivals of a round start may write. -/
abbrev roundFields : List Field := [.roundTimer, .settle, .members, .capture, .ring, .publishQueue, .responder, .coverage,
  .landing, .engine, .banks, .freeSeq, .requester, .port]

/-- The arrivals of a round start, in any order, of which all but one keep what holds before it, and what holds after it. -/
theorem roundArrivals_passes {P Q : State → Prop} {a₀ : RoundArrival} {s : State} {c : RoundContent} {o : Orders}
    (hP : ∀ u a, a ≠ a₀ → OnlyWrites roundFields s u → P u → P (arrive c u a))
    (hQ : ∀ u a, a ≠ a₀ → OnlyWrites roundFields s u → Q u → Q (arrive c u a))
    (hone : ∀ u, OnlyWrites roundFields s u → P u → Q (arrive c u a₀)) (hs : P (restartMarkTimer s)) :
    Q (roundArrivals c o s) := by
  have hwrites (u : State) (a : RoundArrival) (w : OnlyWrites roundFields s u) : OnlyWrites roundFields s (arrive c u a) :=
    .followedBy w (arrive_writes c u a) (by decide)
  exact (foldl_passes (P := fun u => OnlyWrites roundFields s u ∧ P u) (Q := fun u => OnlyWrites roundFields s u ∧ Q u)
    (fun u a ha h => ⟨hwrites u a h.1, hP u a ha h.1 h.2⟩) (fun u a ha h => ⟨hwrites u a h.1, hQ u a ha h.1 h.2⟩)
    (fun u h => ⟨hwrites u a₀ h.1, hone u h.1 h.2⟩) (roundOrder_once o).1 ((roundOrder_once o).2 a₀) _
    ⟨(restartMarkTimer_writes s).widen (by decide), hs⟩).2

/-- What only one arrival of a round start touches is, after all of them, what that one makes of it. -/
theorem roundArrivals_once {β : Type} {F : State → β} {a₀ : RoundArrival} {s : State} {x y : β} (c : RoundContent) (o : Orders)
    (hother : ∀ u a, OnlyWrites roundFields s u → a ≠ a₀ → F (arrive c u a) = F u)
    (hone : ∀ u, OnlyWrites roundFields s u → F u = x → F (arrive c u a₀) = y) (hx : F (restartMarkTimer s) = x) :
    F (roundArrivals c o s) = y :=
  roundArrivals_passes (P := fun u => F u = x) (Q := fun u => F u = y) (fun u a ha w h => (hother u a w ha).trans h)
    (fun u a ha w h => (hother u a w ha).trans h) hone hx

theorem arrive_roundTimer {c : RoundContent} {a : RoundArrival} (h : a ≠ .number) (s : State) :
    (arrive c s a).roundTimer = s.roundTimer := by
  cases a with
  | number => exact absurd rfl h
  | ageing => exact tableRoundStart_writes s .roundTimer (by decide)
  | silence => exact captureRoundStart_writes s .roundTimer (by decide)
  | waits =>
    unfold arrive
    dsimp only
    split
    · exact requesterRoundStart_writes s .roundTimer (by decide)
    · rfl
  | settle => exact settleRoundStart_writes c s .roundTimer (by decide)

/-- The round number a round start leaves (R18). -/
def RoundContent.roundNumber (c : RoundContent) (n : RoundNo) : RoundNo :=
  match c with
  | .nothing => n + 1
  | .received _ m => m.round
  | .own m _ => m.round

theorem numberRoundStart_roundTimer (c : RoundContent) (s : State) :
    (numberRoundStart c s).roundTimer = { s.roundTimer with number := c.roundNumber s.roundTimer.number } := by
  cases c <;> rfl

/-- The mark timer restarts and the round number is set, whatever the order (R18, R19). -/
theorem roundArrivals_roundTimer (c : RoundContent) (o : Orders) (s : State) : (roundArrivals c o s).roundTimer =
    { number := c.roundNumber s.roundTimer.number,
      markTimer := some (s.image.roundPeriod * 10 + s.image.stationNumber * 5) } :=
  roundArrivals_once (F := State.roundTimer) (a₀ := .number) c o (fun u _ _ h => arrive_roundTimer h u)
    (fun u _ hu => (numberRoundStart_roundTimer c u).trans (by rw [hu]; rfl)) rfl

/-- The settle unit after a round start is what its own arrival makes of it. -/
theorem roundArrivals_settle {c : RoundContent} {s : State} {y : Settle}
    (h : ∀ u, OnlyWrites roundFields s u → u.settle = s.settle → (settleRoundStart c u).settle = y) (o : Orders) :
    (roundArrivals c o s).settle = y :=
  roundArrivals_once (F := State.settle) (a₀ := .settle) c o (fun u _ _ h => arrive_settle h u) h rfl

theorem roundStart_of_member {s : State} (h : s.isMember = true) (c : RoundContent) (o : Orders) :
    roundStart c o s = roundArrivals c o s := by
  have hmember := isMember_iff.1 ((isMember_of_writes (roundArrivals_writes c o s) (by decide)).trans h)
  rw [roundStart_eq, if_neg]
  rw [isListen_iff, hmember]
  simp

theorem countJoin_state {s : State} (h : s.isListen = true) : (countJoin s).isIsolated = false := by
  have hmember (u : State) (f : Frame) (k : SettleKind) (d : Byte) : (enterMember f k d u).station.state = .member := by
    unfold enterMember
    dsimp only
    have w := (notice_writes .join f false false (post .joined f d ((u.setStation { u.station with state := .member }).setSettle
      { frame := f, kind := k, openAge := 0, lastMark := none }))).keeps .station (by decide)
    have hpost := (post_writes .joined f d ((u.setStation { u.station with state := .member }).setSettle
      { frame := f, kind := k, openAge := 0, lastMark := none })).keeps .station (by decide)
    exact congrArg Station.state (Eq.trans w hpost)
  rw [isListen_iff] at h
  unfold countJoin State.isIsolated
  dsimp only
  split
  · unfold joinByCount
    rw [hmember]
    rfl
  · rw [show (s.setStation { s.station with joinCount := s.station.joinCount + 1 }).station.state = .listen from h]
    rfl

/-- A round start does not isolate. -/
theorem roundStart_not_isolated {s : State} (h : s.isIsolated = false) (c : RoundContent) (o : Orders) :
    (roundStart c o s).isIsolated = false := by
  rw [roundStart_eq]
  split
  next hl => exact countJoin_state hl
  next =>
    have hstation : (roundArrivals c o s).station = s.station := roundArrivals_writes c o s .station (by decide)
    rw [State.isIsolated, hstation]
    exact h

/-! ## Content that makes no settle (R62, R72, R75, R83) -/

/-- The settle unit makes no settle of the content: its arrival raises the open age in MEMBER, records a MARK in LISTEN, and at
most posts. -/
def RoundContent.Quiet (c : RoundContent) (s : State) : Prop :=
  match c with
  | .nothing => True
  | .received _ m => s.isMember = false ∨ forward s.settle.frame m.settled = 0 ∨ 32768 ≤ forward s.settle.frame m.settled
  | .own m verdict => s.isMember = false ∨ verdict = false ∨ m.kind = .start

theorem takeContent_of_quiet {c : RoundContent} {s : State} (hm : s.isMember = true) (h : c.Quiet s) :
    OnlyWrites [.port] s (takeContent c s) := by
  cases c with
  | nothing => exact .refl
  | received k m =>
    rcases h with h | h | h
    · exact absurd (hm.symm.trans h) (by simp)
    · show OnlyWrites [.port] s (takeMark k m s)
      rw [takeMark_eq_takeAhead k m s (by omega), takeAhead_of_same _ _ h]
      exact .refl
    · show OnlyWrites [.port] s (takeMark k m s)
      rw [takeMark_of_behind k m s h]
      exact post_writes _ _ _ _
  | own m verdict =>
    rcases h with h | h | h
    · exact absurd (hm.symm.trans h) (by simp)
    · subst h
      exact .refl
    · show OnlyWrites [.port] s (takeOwnMark m verdict s)
      rw [takeOwnMark, h]
      split
      · exact .refl
      · exact .refl

theorem settleRoundStart_of_quiet {c : RoundContent} {s : State} (h : c.Quiet s) :
    OnlyWrites [.settle, .port] s (settleRoundStart c s) ∧ (settleRoundStart c s).settle.frame = s.settle.frame ∧
      (s.isMember = true →
        (settleRoundStart c s).settle = { s.settle with openAge := min 65535 (s.settle.openAge + 1) }) := by
  unfold settleRoundStart
  split
  next hm =>
    have hquiet : c.Quiet (raiseOpenAge s) := h
    have w := takeContent_of_quiet (s := raiseOpenAge s) hm hquiet
    have hsettle : (takeContent c (raiseOpenAge s)).settle = (raiseOpenAge s).settle := w .settle (by decide)
    exact ⟨.followedBy ((setSettle_writes _ _).widen (by decide)) w (by decide), by rw [hsettle]; rfl, fun _ => hsettle⟩
  next hm =>
    refine ⟨(recordMark_writes c s).widen (by decide), ?_, fun h => absurd h hm⟩
    cases c <;> rfl

/-- What a round start writes that makes no settle. -/
abbrev quietFields : List Field := [.roundTimer, .settle, .members, .capture, .ring, .publishQueue, .requester, .port]

theorem quiet_of_same {c : RoundContent} {s t : State} (h : c.Quiet s) (hmember : t.isMember = s.isMember)
    (hframe : t.settle.frame = s.settle.frame) : c.Quiet t := by
  cases c with
  | nothing => trivial
  | received k m => rw [RoundContent.Quiet, hmember, hframe]; exact h
  | own m verdict => rw [RoundContent.Quiet, hmember]; exact h

theorem arrive_of_quiet {c : RoundContent} {s : State} (h : c.Quiet s) (a : RoundArrival) :
    OnlyWrites quietFields s (arrive c s a) ∧ (arrive c s a).settle.frame = s.settle.frame := by
  cases a with
  | number => exact ⟨(numberRoundStart_writes c s).widen (by decide), rfl⟩
  | ageing => exact ⟨(tableRoundStart_writes s).widen (by decide), congrArg Settle.frame (arrive_settle (c := c) (a := .ageing) (by decide) s)⟩
  | silence => exact ⟨(captureRoundStart_writes s).widen (by decide), congrArg Settle.frame (arrive_settle (c := c) (a := .silence) (by decide) s)⟩
  | waits =>
    refine ⟨?_, congrArg Settle.frame (arrive_settle (by decide) s)⟩
    unfold arrive
    dsimp only
    split
    · exact (requesterRoundStart_writes s).widen (by decide)
    · exact .refl
  | settle =>
    obtain ⟨w, hframe, -⟩ := settleRoundStart_of_quiet h
    exact ⟨w.widen (by decide), hframe⟩

theorem arrivals_of_quiet {c : RoundContent} (l : List RoundArrival) : ∀ {s : State}, c.Quiet s →
    OnlyWrites quietFields s (l.foldl (arrive c) s) ∧ (l.foldl (arrive c) s).settle.frame = s.settle.frame := by
  induction l with
  | nil => exact fun _ => ⟨.refl, rfl⟩
  | cons a l ih =>
    intro s h
    obtain ⟨w, hframe⟩ := arrive_of_quiet h a
    obtain ⟨w', hframe'⟩ := ih (quiet_of_same h (isMember_of_writes w (by decide)) hframe)
    exact ⟨.followedBy w w' (by decide), hframe'.trans hframe⟩

theorem roundArrivals_of_quiet {c : RoundContent} {s : State} (h : c.Quiet s) (o : Orders) :
    OnlyWrites quietFields s (roundArrivals c o s) ∧ (roundArrivals c o s).settle.frame = s.settle.frame := by
  obtain ⟨w, hframe⟩ := arrivals_of_quiet (roundOrder o) (s := restartMarkTimer s) h
  exact ⟨.followedBy ((restartMarkTimer_writes s).widen (by decide)) w (by decide), hframe⟩

/-- A round start that makes no settle raises the open age of a MEMBER by one (R61). -/
theorem roundArrivals_settle_of_quiet {c : RoundContent} {s : State} (hm : s.isMember = true) (h : c.Quiet s) (o : Orders) :
    (roundArrivals c o s).settle = { s.settle with openAge := min 65535 (s.settle.openAge + 1) } := by
  refine roundArrivals_settle (fun u w hu => ?_) o
  have hmember : u.isMember = s.isMember := isMember_of_writes w (by decide)
  obtain ⟨-, -, hsettle⟩ := settleRoundStart_of_quiet (quiet_of_same h hmember (by rw [hu]))
  rw [hsettle (hmember.trans hm), hu]

/-! ## Bursts that are discarded (R22, R23) -/

theorem roundContent_of_discarded {j : Judgment} (h : j.discarded = true) : roundContent none j = .nothing := by
  cases j with
  | valid b => exact absurd h Bool.false_ne_true
  | checkFailure => rfl
  | misplaced => rfl
  | malformed => rfl

theorem deliver_of_discarded {j : Judgment} (h : j.discarded = true) (o : Orders) (s : State) : deliver j o s = s := by
  cases j with
  | valid b => exact absurd h Bool.false_ne_true
  | checkFailure => rfl
  | misplaced => rfl
  | malformed => rfl

theorem concludeBurst_none (x : Hearing) (j : Judgment) (o : Orders) (s : State) : concludeBurst x none j o s =
    if x.opensRound then roundStart (roundContent none j) o (countJudgment j s) else deliver j o (countJudgment j s) := by
  unfold concludeBurst reportAndDeliver reportPassed
  dsimp only
  rw [ite_self]

theorem burstTaken_discarded {s : State} {heard : List Byte} {opens : Bool} {j : Judgment} (h : Hears s heard opens j)
    (hj : j.discarded = true) (o : Orders) : exec (.burstTaken heard o) s =
      .next (if opens then roundStart .nothing o (countJudgment j (afterBurst s)) else countJudgment j (afterBurst s)) := by
  obtain ⟨repeated, hexec⟩ := burstTaken_heard h o
  rw [hexec, concludeBurst_none, roundContent_of_discarded hj, deliver_of_discarded hj]

/-- Settles O30. -/
theorem discardedBurstsAreCounted : Obligations.DiscardedBurstsAreCounted := fun _ _ o =>
  ⟨fun h => burstTaken_discarded h rfl o, fun h => burstTaken_discarded h rfl o, fun h => burstTaken_discarded h rfl o⟩

/-! ## The end of a position (R15, R16) -/

theorem settleReadback_position (r : Option (SentItem × Readback)) (s : State) :
    (settleReadback r s).bus.position = s.bus.position := by
  have hfault (i : SentItem) (u : State) : (takeFault i u).bus.position = u.bus.position := by
    unfold takeFault
    dsimp only
    split
    · rw [isolate_bus]
      rfl
    split
    · rw [isolate_bus]
      rfl
    · rfl
  unfold settleReadback
  dsimp only
  split
  · rfl
  · rfl
  · rfl
  · exact hfault _ _

theorem deliver_position (j : Judgment) (o : Orders) (s : State) : (deliver j o s).bus.position = s.bus.position := by
  cases j with
  | valid b =>
    show (if s.isMember then deliverMember b o s else deliverListening b s).bus.position = _
    split
    · exact congrArg Bus.position (deliverMember_writes b o s .bus (by decide))
    · unfold deliverListening
      split
      · split
        · rw [isolate_bus]
        · exact congrArg Bus.position (tableTakeState_writes _ _ s .bus (by decide))
      · rfl
      · rfl
      · rfl
      · rfl
  | checkFailure => rfl
  | misplaced => rfl
  | malformed => rfl

theorem reportPassed_position (p : Option SentItem) (s : State) : (reportPassed p s).bus.position = s.bus.position :=
  congrArg Bus.position (reportPassed_writes p s .bus (by decide))

theorem countJudgment_bus (j : Judgment) (s : State) : (countJudgment j s).bus = s.bus := countJudgment_writes j s .bus (by decide)

/-- The end of a burst does not move the position counter. -/
theorem endBurst_position (x : Hearing) (cut : Bool) (heard : List Byte) (o : Orders) (s : State) :
    (endBurst x cut heard o s).bus.position = s.bus.position := by
  unfold endBurst
  dsimp only
  split
  · exact settleReadback_position _ s
  · refine .trans ?_ (settleReadback_position (ownReadback s heard) s)
    unfold concludeBurst reportAndDeliver
    dsimp only
    split
    · refine (congrArg Bus.position (roundStart_writes _ _ _ .bus (by decide))).trans ?_
      rw [countJudgment_bus]
    · split
      · rw [deliver_position, reportPassed_position, countJudgment_bus]
      · rw [reportPassed_position, deliver_position, countJudgment_bus]

theorem cutBurst_position (heard : List Byte) (o : Orders) (s : State) : (cutBurst heard o s).bus.position = s.bus.position := by
  unfold cutBurst
  split
  · exact endBurst_position _ _ _ _ s
  · rfl

/-- A position end at a MEMBER or an aligned listener, outside the tail: the burst heard is cut off, and, unless that isolates
the station, the counter advances. -/
theorem takePositionEnd_eq {s u : State} {heard : List Byte} {o : Orders} (hon : s.onTheBus = true) (hp : s.bus.position ≠ .tail)
    (hcut : cutBurst heard o s = u) : takePositionEnd heard o s = if u.isIsolated then u else advancePosition u := by
  rw [takePositionEnd_of_onTheBus hon, endPosition_eq hp, hcut]

theorem advancePosition_of_cut {s u : State} {heard : List Byte} {o : Orders} (hcut : cutBurst heard o s = u) :
    OnlyWrites [.bus] u (advancePosition u) ∧ (advancePosition u).bus.position = s.bus.position.next := by
  subst hcut
  exact ⟨advancePosition_writes _, by rw [advancePosition_position, cutBurst_position]⟩

theorem cutBurst_of_numbered {s : State} {x : Hearing} (hon : s.onTheBus = true) (hsilent : s.bus.driving = none)
    (hhearing : s.bus.hearing = some x) (hopens : x.opensRound = false) (heard : List Byte) (o : Orders) :
    cutBurst heard o s = raise .checkFailures 1 (afterBurst s) := by
  have hstays : (settleReadback none s).isIsolated = false := afterBurst_not_isolated hon
  rw [cutBurst, hhearing]
  show endBurst x true heard o s = _
  rw [endBurst, ownReadback, hsilent]
  dsimp only [Option.map_none]
  rw [if_neg (fun h => Bool.false_ne_true (hstays.symm.trans h)), if_pos rfl, show passedItem none = none from rfl, concludeBurst_none, hopens]
  rfl

/-- Settles O26. -/
theorem positionEndAdvancesCounter : Obligations.PositionEndAdvancesCounter := by
  refine ⟨fun s heard o hon hquiet hp => ?_, fun s heard o hon hp => congrArg _ (takePositionEnd_of_tail hon hp heard o),
    fun s heard o h => congrArg _ (takePositionEnd_of_deaf h heard o),
    fun s heard o hl hu => congrArg _ (takePositionEnd_of_unaligned hl hu heard o),
    fun s heard o x hon hsilent hhearing hopens hp hcount => ?_, fun s u heard heard' opens o h hp hexec => ?_,
    fun s u d heard opens o h hp hexec => ?_⟩
  · refine ⟨advancePosition s, congrArg _ (takePositionEnd_of_quiet hon hquiet hp heard o), advancePosition_writes s,
      fun h => ?_, fun k h hk => ?_, fun h => ?_, fun hm => ?_⟩
    · rw [advancePosition_position, h]
      rfl
    · rw [advancePosition_position, h, next_of_lt hk]
    · rw [advancePosition_position, h]
      rfl
    · rw [advancePosition_of_not_member hm]
      rfl
  · have hcut := cutBurst_of_numbered hon hsilent hhearing hopens heard o
    have hstays : (raise .checkFailures 1 (afterBurst s)).isIsolated = false := afterBurst_not_isolated hon
    obtain ⟨w, hposition⟩ := advancePosition_of_cut hcut
    have hport : (advancePosition (raise .checkFailures 1 (afterBurst s))).port = (raise .checkFailures 1 s).port :=
      w .port (by decide)
    refine ⟨_, congrArg Host.Outcome.next ((takePositionEnd_eq hon hp hcut).trans (by rw [hstays]; rfl)), ?_, ?_, fun c => ?_, hposition⟩
    · refine .followedBy (gs := [.bus]) ?_ w (by decide)
      exact .followedBy (gs := [.port]) ((setBus_writes _ _).widen (by decide)) (raise_writes _ _ _) (by decide)
    · rw [hport]
      rfl
    · rw [State.counter, hport]
      refine (counter_raise .checkFailures c 1 s hcount).trans ?_
      split
      next h => rw [h]; rfl
      next => rfl
  · have hcut : cutBurst heard o s = u := (cutBurst_of_hears h heard o).trans (Host.Outcome.next.inj hexec)
    have hu := Host.Outcome.next.inj ((burstTaken_discarded h rfl o).symm.trans hexec)
    have hafter : (countJudgment .checkFailure (afterBurst s)).isIsolated = false := afterBurst_not_isolated h.onTheBus
    have hstays : u.isIsolated = false := by
      subst hu
      split
      · exact roundStart_not_isolated hafter _ _
      · exact hafter
    obtain ⟨w, hposition⟩ := advancePosition_of_cut hcut
    refine ⟨_, congrArg Host.Outcome.next ((takePositionEnd_eq h.onTheBus hp hcut).trans (by rw [hstays]; rfl)), w, hposition, fun hm hopens => ?_⟩
    have hm' : (countJudgment .checkFailure (afterBurst s)).isMember = true := hm
    rw [hopens, if_pos rfl, roundStart_of_member hm'] at hu
    subst hu
    refine ⟨(w .roundTimer (by decide)).trans ?_, (w .settle (by decide)).trans ?_, fun hcount => ?_⟩
    · exact roundArrivals_roundTimer .nothing o _
    · exact roundArrivals_settle_of_quiet (c := .nothing) hm' trivial o
    · rw [State.counter, w .port (by decide)]
      refine ((roundArrivals_report .nothing o _).counters .checkFailures (by decide)).trans ?_
      exact counter_raise_self (s := afterBurst s) hcount
  · have hcut : cutBurst heard o s = u := (cutBurst_of_drives h o).trans (Host.Outcome.next.inj hexec)
    have hon := onTheBus_of_member h.member
    refine ⟨fun hi => ?_, fun hi => ?_⟩
    · rw [← isIsolated_iff] at hi
      exact congrArg Host.Outcome.next ((takePositionEnd_eq hon hp hcut).trans (if_pos hi))
    · rw [ne_eq, ← isIsolated_iff] at hi
      exact ⟨_, congrArg Host.Outcome.next ((takePositionEnd_eq hon hp hcut).trans (if_neg hi)), advancePosition_of_cut hcut⟩

/-! ## What a MEMBER sends (R28 to R31) -/

/-- The end of a quiet position at a MEMBER. -/
theorem positionEnd_of_member {s : State} (hm : s.isMember = true) (hquiet : s.bus.hearing = none) (hp : s.bus.position ≠ .tail)
    (heard : List Byte) (o : Orders) : exec (.positionEnd heard o) s = .next (beginPosition (nextPosition s)) ∧
      OnlyWrites [.bus] s (beginPosition (nextPosition s)) := by
  rw [← advancePosition_of_member hm]
  exact ⟨congrArg _ (takePositionEnd_of_quiet (onTheBus_of_member hm) hquiet hp heard o), advancePosition_writes s⟩

theorem send_driving {s : State} {k : Nat} (h : s.bus.position = .numbered k) (i : SentItem) (c : Bool) (b : Body) :
    (send i c b s).bus.driving = some ⟨i, c, ownBurst s b⟩ := by rw [send_numbered h]; rfl

theorem streamStanding_unknown_iff (s : State) (f : Frame) (k : Nat) :
    streamStanding s f k = .unknown ↔ ¬ TreatedAsNone s f k ∧ ¬ Awaited s f k := by
  rw [← treatedAsNone_iff, ← awaited_iff]
  cases streamStanding s f k <;> simp

/-- Settles O27. -/
theorem stateSentInOwnPosition : Obligations.StateSentInOwnPosition := by
  refine ⟨fun s f => completeFor_iff, fun s f k => ⟨treatedAsNone_iff, awaited_iff, streamStanding_unknown_iff s f k⟩,
    fun s heard o k hm hquiet hp hnext hk => ?_⟩
  obtain ⟨hexec, w⟩ := positionEnd_of_member hm hquiet hp heard o
  have hbegin := beginPosition_state (s := nextPosition s) hnext hk
  refine ⟨_, hexec, w, fun hother => ?_, fun hown => ?_⟩
  · rw [hbegin, if_neg (show ¬ k = (nextPosition s).image.stationNumber + 1 from hother)]
    rfl
  · rw [hbegin, if_pos (show k = (nextPosition s).image.stationNumber + 1 from hown)]
    exact ⟨composeState s, send_driving hnext _ _ _, rfl, rfl, rfl, rfl, rfl, rfl, rfl, rfl⟩

/-- Settles O28. -/
theorem segmentSentInOwnStreamPosition : Obligations.SegmentSentInOwnStreamPosition := by
  intro s heard o k hm hquiet hp hlow hhigh
  obtain ⟨hexec, w⟩ := positionEnd_of_member hm hquiet (by rw [hp]; simp) heard o
  have hnext : (nextPosition s).bus.position = .numbered (k + 1) := by
    show s.bus.position.next = _
    rw [hp, next_of_lt (by omega)]
  have hmap : (nextPosition s).image.mapEntry (k + 1 - 33) = s.image.mapEntry (k - 32) :=
    congrArg s.image.mapEntry (Nat.add_sub_add_right k 1 32)
  refine ⟨_, hexec, w, fun hother => ?_, fun a hentry hown => ?_⟩
  · rw [beginPosition_otherStream hnext (by omega) (by omega) (by rw [hmap]; exact hother)]
    rfl
  · rw [beginPosition_ownStream hnext (by omega) (by omega) (hmap.trans hentry) hown]
    refine ⟨fun p rest hqueue => ?_, fun m hqueue hslot => ?_, fun hqueue hslot => ?_⟩
    · rw [sendStream_cons (s := nextPosition s) hqueue]
      exact send_driving hnext _ _ _
    · rw [sendStream_slot (s := nextPosition s) hqueue hslot]
      exact send_driving hnext _ _ _
    · rw [sendStream_silent (s := nextPosition s) hqueue hslot]
      rfl

/-- Settles O29. -/
theorem lowestClassOfferedInOpenPosition : Obligations.LowestClassOfferedInOpenPosition := by
  intro s heard o k hm hquiet hp hlow hhigh
  obtain ⟨hexec, w⟩ := positionEnd_of_member hm hquiet (by rw [hp]; simp) heard o
  have hnext : (nextPosition s).bus.position = .numbered (k + 1) := by
    show s.bus.position.next = _
    rw [hp, next_of_lt (by omega)]
  rw [beginPosition_open hnext (by omega)] at hexec w
  refine ⟨_, hexec, w, fun m rest hreplies => ?_, fun e hreplies hpending => ?_, fun m hreplies hpending hslot => ?_,
    fun hreplies hpending hslot => ?_⟩
  · rw [sendOpen_status (s := nextPosition s) hreplies]
    exact send_driving hnext _ _ _
  · rw [sendOpen_request (s := nextPosition s) hreplies hpending]
    exact send_driving hnext _ _ _
  · rw [sendOpen_slot (s := nextPosition s) hreplies (pendingEntry_eq_none_iff.2 hpending) hslot]
    exact send_driving hnext _ _ _
  · rw [sendOpen_silent (s := nextPosition s) hreplies (pendingEntry_eq_none_iff.2 hpending) hslot]
    rfl

end Sys2Proof.Machine
end

section
/-! What the end of a burst brings: bursts taken in LISTEN, readback losses and faults, round starts, and the mark timer. -/

namespace Sys2Proof.Machine

/-! ## Bursts in LISTEN (R24, R36, R48) -/

/-- A burst heard that opened no round is delivered, once counted. -/
theorem burstTaken_heard_false {s : State} {heard : List Byte} {j : Judgment} (h : Hears s heard false j) (o : Orders) :
    exec (.burstTaken heard o) s = .next (deliver j o (countJudgment j (afterBurst s))) := by
  obtain ⟨repeated, hexec⟩ := burstTaken_heard h o
  rw [hexec, concludeBurst_none]
  rfl

theorem not_member_of_listen {s : State} (h : s.station.state = .listen) : s.isMember = false := by
  rw [isMember_eq_false_iff, h]
  simp

theorem burstTaken_listening {s : State} {heard : List Byte} {b : Burst} (hl : s.station.state = .listen)
    (h : Hears s heard false (.valid b)) (o : Orders) :
    exec (.burstTaken heard o) s = .next (deliverListening b (afterBurst s)) := by
  have hm : (afterBurst s).isMember = false := not_member_of_listen hl
  rw [burstTaken_heard_false h]
  show Host.Outcome.next (if (afterBurst s).isMember then _ else _) = _
  rw [hm]
  rfl

/-- An isolation that follows what changed only the bus interface, the port, or neither. -/
theorem Isolates.of_same {s u t : State} {code : FaultCode} (h : Isolates u t code) (w : OnlyWrites [.bus, .port] s u)
    (hposition : u.bus.position = s.bus.position) (haligned : u.bus.aligned = s.bus.aligned) : Isolates s t code where
  station := by rw [h.station, w .station (by decide)]
  bus := by
    obtain ⟨hdriving, hhearing, hclaim, hp, ha⟩ := h.bus
    exact ⟨hdriving, hhearing, hclaim, hp.trans hposition, ha.trans haligned⟩
  timer := by rw [h.timer, w .roundTimer (by decide)]
  capture := by
    have hcapture : u.capture = s.capture := w .capture (by decide)
    rw [← hcapture]
    exact h.capture
  stores := h.stores
  responder := h.responder
  engine := h.engine
  banks := by
    have hbanks : u.banks = s.banks := w .banks (by decide)
    rw [← hbanks]
    exact h.banks
  requester := by
    have hrequester : u.requester = s.requester := w .requester (by decide)
    rw [← hrequester]
    exact h.requester
  frozen := by
    have hsettle : u.settle = s.settle := w .settle (by decide)
    have hmembers : u.members = s.members := w .members (by decide)
    have hcoverage : u.coverage = s.coverage := w .coverage (by decide)
    have hscan : u.scan = s.scan := w .scan (by decide)
    rw [← hsettle, ← hmembers, ← hcoverage, ← hscan]
    exact h.frozen

/-- Settles O31. -/
theorem listeningStationTakesStatesOnly : Obligations.ListeningStationTakesStatesOnly := by
  intro s heard o b hl h
  obtain ⟨k, body⟩ := b
  have hexec := burstTaken_listening hl h o
  refine ⟨?_, ?_, ?_, ?_, ?_, ?_⟩
  · rintro m rfl
    exact hexec
  · rintro m rfl
    exact hexec
  · rintro m rfl
    exact hexec
  · rintro m rfl
    exact hexec
  · rintro m rfl hk
    exact hexec.trans (congrArg _ (if_neg hk))
  · rintro m rfl hk
    refine ⟨isolate .duplicateNumber (afterBurst s), hexec.trans (congrArg _ (if_pos hk)), ?_, ?_, ?_⟩
    · exact (isolate_isolates _ (afterBurst s)).of_same ((setBus_writes _ _).widen (by decide)) rfl rfl
    · exact isolate_writes .duplicateNumber (afterBurst s) .loader (by decide)
    · rw [isolate_port]
      exact post_port_congr _ _ _ rfl rfl

/-! ## Readback losses and faults (R26, R32 to R35) -/

theorem takeBurst_eq {s : State} {x : Hearing} (hon : s.onTheBus = true) (h : s.bus.hearing = some x) (heard : List Byte)
    (o : Orders) : takeBurst heard o s = if (settleReadback (ownReadback s heard) s).isIsolated then
        settleReadback (ownReadback s heard) s
      else concludeBurst x (passedItem (ownReadback s heard)) (judge s.image s.bus.position x.repeated heard) o
        (settleReadback (ownReadback s heard) s) := by
  rw [takeBurst, h]
  exact if_pos hon

theorem ownReadback_eq {s : State} {d : Driving} (h : s.bus.driving = some d) (heard : List Byte) :
    ownReadback s heard = some (d.item, readback d.contested d.bytes heard) := by
  rw [ownReadback, h]
  rfl

/-- A readback that passes no item leaves the burst heard to be taken as at a station that drove nothing. -/
theorem takeBurst_as_receiver {s s' : State} {d : Driving} {x : Hearing} {heard : List Byte} (hon : s.onTheBus = true)
    (hhearing : s.bus.hearing = some x) (hdriving : s.bus.driving = some d) (hpassed : readback d.contested d.bytes heard ≠ .clean)
    (hon' : s'.onTheBus = true) (hhearing' : s'.bus.hearing = some x) (hsilent : s'.bus.driving = none)
    (himage : s'.image = s.image) (hposition : s'.bus.position = s.bus.position)
    (hsettled : settleReadback (ownReadback s heard) s = afterBurst s') (o : Orders) :
    takeBurst heard o s = takeBurst heard o s' := by
  have hnone : passedItem (ownReadback s heard) = none := by
    rw [ownReadback_eq hdriving]
    cases hr : readback d.contested d.bytes heard with
    | clean => exact absurd hr hpassed
    | arbitrationLost => rfl
    | fault => rfl
  have hsilent' : ownReadback s' heard = none := by rw [ownReadback, hsilent]; rfl
  rw [takeBurst_eq hon hhearing, takeBurst_eq hon' hhearing', hsettled, hnone, hsilent', himage, hposition]
  rfl

theorem isState_iff {i : SentItem} : i.isState = true ↔ i = .state := by cases i <;> simp [SentItem.isState]

theorem takeFault_below {i : SentItem} {s : State} (hfaults : s.bus.consecutiveFaults + 1 < 8)
    (hcollisions : i = .state → s.bus.collisions = 0) : takeFault i s = countFault i s := by
  have hcollision : ¬ (i.isState && Config.collisionLimit ≤ (countFault i s).bus.collisions) = true := by
    rw [Bool.and_eq_true, isState_iff, decide_eq_true_iff]
    rintro ⟨hi, hlimit⟩
    have hcount : (countFault i s).bus.collisions = if i.isState then saturate 2 s.bus.collisions 1 else s.bus.collisions := rfl
    rw [hcount, if_pos (isState_iff.2 hi), hcollisions hi] at hlimit
    exact absurd hlimit (by decide)
  have hfault : ¬ Config.mediumFaultLimit ≤ (countFault i s).bus.consecutiveFaults := by
    show ¬ 8 ≤ min 8 (s.bus.consecutiveFaults + 1)
    omega
  rw [takeFault, if_neg hcollision, if_neg hfault]

theorem takeFault_medium {i : SentItem} {s : State} (hfaults : 7 ≤ s.bus.consecutiveFaults)
    (hcollisions : ¬ (i = .state ∧ 1 ≤ s.bus.collisions)) : takeFault i s = isolate .mediumFault (countFault i s) := by
  have hcollision : ¬ (i.isState && Config.collisionLimit ≤ (countFault i s).bus.collisions) = true := by
    rw [Bool.and_eq_true, isState_iff, decide_eq_true_iff]
    rintro ⟨hi, hlimit⟩
    have hcount : (countFault i s).bus.collisions = if i.isState then min 2 (s.bus.collisions + 1) else s.bus.collisions := rfl
    rw [hcount, if_pos (isState_iff.2 hi)] at hlimit
    have hlimit : 2 ≤ min 2 (s.bus.collisions + 1) := hlimit
    exact hcollisions ⟨hi, by omega⟩
  have hfault : Config.mediumFaultLimit ≤ (countFault i s).bus.consecutiveFaults := by
    show 8 ≤ min 8 (s.bus.consecutiveFaults + 1)
    omega
  rw [takeFault, if_neg hcollision, if_pos hfault]

theorem takeFault_collision {s : State} (hcollisions : 1 ≤ s.bus.collisions) :
    takeFault .state s = isolate .duplicateNumber (countFault .state s) := by
  have hcollision : Config.collisionLimit ≤ (countFault .state s).bus.collisions := by
    show 2 ≤ min 2 (s.bus.collisions + 1)
    omega
  rw [takeFault, if_pos (by rw [decide_eq_true hcollision]; rfl)]

/-- Settles O32. -/
theorem lossAndFaultAreReception : Obligations.LossAndFaultAreReception := by
  rintro s d heard opens j o ⟨hmember, ⟨x, hhearing, -, -⟩, hdriving⟩
  have hon := onTheBus_of_member hmember
  refine ⟨fun hlost => congrArg Host.Outcome.next ?_, fun hfault hfaults hcollisions => congrArg Host.Outcome.next ?_⟩
  · refine takeBurst_as_receiver (s' := s.setBus { s.bus with driving := none, markClaim := s.bus.markClaim && !d.item.isMark })
      hon hhearing hdriving (fun h => nomatch hlost.symm.trans h) (onTheBus_of_member hmember) hhearing rfl rfl rfl ?_ o
    rw [ownReadback_eq hdriving, hlost]
    rfl
  · refine takeBurst_as_receiver (s' := (raise .readbackFaults 1 s).setBus { s.bus with
        driving := none, consecutiveFaults := s.bus.consecutiveFaults + 1,
        collisions := if d.item = .state then 1 else s.bus.collisions }) hon hhearing hdriving (fun h => nomatch hfault.symm.trans h) (onTheBus_of_member hmember) hhearing rfl rfl rfl ?_ o
    rw [ownReadback_eq hdriving, hfault]
    refine (takeFault_below (s := afterBurst s) hfaults hcollisions).trans ?_
    have hcount : saturate Config.mediumFaultLimit s.bus.consecutiveFaults 1 = s.bus.consecutiveFaults + 1 :=
      Nat.min_eq_right (Nat.le_of_lt hfaults)
    have hcollide : (if d.item.isState then saturate Config.collisionLimit s.bus.collisions 1 else s.bus.collisions) =
        if d.item = .state then 1 else s.bus.collisions := by
      by_cases hi : d.item = .state
      · rw [if_pos hi, if_pos (isState_iff.2 hi), hcollisions hi]
        rfl
      · rw [if_neg hi, if_neg (fun h => hi (isState_iff.1 h))]
    unfold countFault
    dsimp only
    rw [show (raise .readbackFaults 1 (afterBurst s)).bus.consecutiveFaults = s.bus.consecutiveFaults from rfl, hcount,
      show (raise .readbackFaults 1 (afterBurst s)).bus.collisions = s.bus.collisions from rfl, hcollide]
    rfl

/-- A readback fault that isolates ends the burst. -/
theorem burstTaken_isolated {s t : State} {d : Driving} {heard : List Byte} {opens : Bool} {j : Judgment}
    (h : Drives s d heard opens j) (hfault : readback d.contested d.bytes heard = .fault)
    (ht : takeFault d.item (afterBurst s) = t) (hisolated : t.isIsolated = true) :
    settleReadback (ownReadback s heard) s = t ∧ faultComes s heard = some d.item ∧
      ∀ o, exec (.burstTaken heard o) s = .next t := by
  obtain ⟨hmember, ⟨x, hhearing, -, -⟩, hdriving⟩ := h
  have hsettled : settleReadback (ownReadback s heard) s = t := by
    rw [ownReadback_eq hdriving, hfault]
    exact ht
  refine ⟨hsettled, ?_, fun o => congrArg Host.Outcome.next ?_⟩
  · rw [faultComes, hhearing, ownReadback_eq hdriving, hfault]
    exact if_pos hmember
  · rw [takeBurst_eq (onTheBus_of_member hmember) hhearing, hsettled, if_pos hisolated]

/-- What an isolation by a readback fault leaves. -/
theorem isolate_countFault (code : FaultCode) (i : SentItem) (s : State) :
    Isolates s (isolate code (countFault i (afterBurst s))) code ∧
      (isolate code (countFault i (afterBurst s))).loader = s.loader ∧
      (isolate code (countFault i (afterBurst s))).port = (post .isolated s.settle.frame code.code (raise .readbackFaults 1 s)).port := by
  refine ⟨?_, isolate_writes code _ .loader (by decide), ?_⟩
  · refine (isolate_isolates code _).of_same ?_ rfl rfl
    exact .followedBy (gs := [.bus, .port]) ((setBus_writes _ _).widen (by decide)) (countFault_writes _ _) (by decide)
  · rw [isolate_port]
    exact post_port_congr _ _ _ rfl rfl

theorem faultComes_of_silent {s : State} (h : s.bus.driving = none) (heard : List Byte) : faultComes s heard = none := by
  rw [faultComes, ownReadback, h]
  cases s.bus.hearing <;> rfl

theorem execMediumFault_eq (heard : List Byte) (s : State) : exec (.mediumFault heard) s =
    .next (match faultComes s heard with
      | some item => if mediumFaultDue item s then settleReadback (ownReadback s heard) s else s
      | none => s) := rfl

theorem execDuplicateNumber_eq (heard : List Byte) (s : State) : exec (.duplicateNumber heard) s =
    .next (match faultComes s heard with
      | some item => if collisionDue item s then settleReadback (ownReadback s heard) s else s
      | none => s) := rfl

theorem collisionDue_iff {i : SentItem} {s : State} : collisionDue i s = true ↔ i = .state ∧ 1 ≤ s.bus.collisions := by
  rw [collisionDue, Bool.and_eq_true, isState_iff, decide_eq_true_iff]
  exact and_congr_right fun _ => Nat.succ_le_succ_iff

theorem mediumFaultDue_iff {i : SentItem} {s : State} : mediumFaultDue i s = true ↔
    ¬ (i = .state ∧ 1 ≤ s.bus.collisions) ∧ 7 ≤ s.bus.consecutiveFaults := by
  rw [mediumFaultDue, Bool.and_eq_true, Bool.not_eq_true', ← Bool.not_eq_true, collisionDue_iff, decide_eq_true_iff]
  exact and_congr_right fun _ => Nat.succ_le_succ_iff

/-- Settles O33. -/
theorem faultLimitsIsolate : Obligations.FaultLimitsIsolate := by
  refine ⟨fun s d heard opens j h hfault => ⟨fun hfaults hcollisions => ?_, fun hstate hcollisions => ?_⟩, fun s heard h => ?_,
    fun s heard h => ?_⟩
  · obtain ⟨hsettled, hcomes, htaken⟩ := burstTaken_isolated h hfault
      (takeFault_medium (s := afterBurst s) hfaults hcollisions) (isolate_isIsolated _ _)
    obtain ⟨hisolates, hloader, hport⟩ := isolate_countFault .mediumFault d.item s
    refine ⟨_, ?_, htaken, hisolates, hloader, ?_, hport⟩
    · rw [execMediumFault_eq, hcomes]
      exact congrArg _ ((if_pos (mediumFaultDue_iff.2 ⟨hcollisions, hfaults⟩)).trans hsettled)
    · rw [isolate_bus]
      show min 8 (s.bus.consecutiveFaults + 1) = 8
      omega
  · obtain ⟨hsettled, hcomes, htaken⟩ := burstTaken_isolated h hfault
      ((congrArg (takeFault · (afterBurst s)) hstate).trans (takeFault_collision hcollisions)) (isolate_isIsolated _ _)
    obtain ⟨hisolates, hloader, hport⟩ := isolate_countFault .duplicateNumber .state s
    refine ⟨_, ?_, htaken, hisolates, hloader, ?_, hport⟩
    · rw [execDuplicateNumber_eq, hcomes]
      exact congrArg _ ((if_pos (collisionDue_iff.2 ⟨hstate, hcollisions⟩)).trans hsettled)
    · rw [isolate_bus]
      show min 2 (s.bus.collisions + 1) = 2
      omega
  · rw [execMediumFault_eq]
    split
    next item hcomes =>
      refine congrArg _ (if_neg fun hdue => ?_)
      rcases h with hsilent | hfaults
      · rw [faultComes_of_silent hsilent] at hcomes
        simp at hcomes
      · exact absurd (mediumFaultDue_iff.1 hdue).2 (Nat.not_le.2 hfaults)
    next => rfl
  · rw [execDuplicateNumber_eq]
    split
    next item hcomes =>
      refine congrArg _ (if_neg fun hdue => ?_)
      rcases h with hsilent | hcollisions
      · rw [faultComes_of_silent hsilent] at hcomes
        simp at hcomes
      · exact absurd (collisionDue_iff.1 hdue).2 (by omega)
    next => rfl

/-! ## Round starts in MEMBER (R17, R61, R71 to R75) -/

/-- A frame one or more ahead becomes the settled frame, with its kind. -/
theorem takeAhead_settle_of_ahead {s : State} {f : Frame} (hlow : 1 ≤ forward s.settle.frame f)
    (hhigh : forward s.settle.frame f ≤ 32767) (path : SettlePath) (k : SettleKind) :
    (takeAhead path f k (compareFrame s.settle.frame f) s).settle = { s.settle with frame := f, kind := k, openAge := 0 } := by
  rcases Nat.lt_or_ge 1 (forward s.settle.frame f) with hfar | hone
  · rw [takeAhead_of_farAhead path k hfar hhigh, resync_settle]
  · have hone : forward s.settle.frame f = 1 := by omega
    rw [takeAhead_of_oneAhead_settle path k hone, eq_add_of_forward_eq_one hone]

theorem settleRoundStart_of_member {s : State} (h : s.isMember = true) (c : RoundContent) :
    settleRoundStart c s = takeContent c (raiseOpenAge s) := if_pos h

theorem settleRoundStart_settle_of_ahead {s : State} {k : Nat} {m : MarkFields} (h : s.isMember = true)
    (hlow : 1 ≤ forward s.settle.frame m.settled) (hhigh : forward s.settle.frame m.settled ≤ 32767) :
    (settleRoundStart (.received k m) s).settle = { s.settle with frame := m.settled, kind := m.kind, openAge := 0 } := by
  rw [settleRoundStart_of_member h]
  show (takeMark k m (raiseOpenAge s)).settle = _
  rw [takeMark_eq_takeAhead k m (raiseOpenAge s) hhigh, takeAhead_settle_of_ahead (s := raiseOpenAge s) hlow hhigh]
  rfl

/-- The counters a settle raises: a commit or an abandon is counted as taken (R63). -/
theorem settleCommit_counter {s : State} (h : s.port.counters.length = 22) :
    (settleCommit s).counter .commitsTaken = min 65535 (s.counter .commitsTaken + 1) :=
  ((notice_reports _ _ _ _ _).counters .commitsTaken (by decide)).trans (counter_raise_self (s := advance s.openFrame .commit s) h)

theorem settleAbandon_counter {s : State} (h : s.port.counters.length = 22) (path : SettlePath) :
    (settleAbandon path s).counter .abandonsTaken = min 65535 (s.counter .abandonsTaken + 1) := by
  refine ((notice_reports _ _ _ _ _).counters .abandonsTaken (by decide)).trans ?_
  refine ((post_reports (cs := []) _ _ _ _).counters .abandonsTaken (by decide)).trans ?_
  exact counter_raise_self (s := advance s.openFrame .abandon s) h

theorem takeMark_of_oneAhead {s : State} {k : Nat} {m : MarkFields} (h : forward s.settle.frame m.settled = 1) :
    takeMark k m s = takeAhead .receivedMark m.settled m.kind .oneAhead s := by
  simp only [takeMark, compareFrame_of_oneAhead h]

/-- A counter that only the settle unit's arrival raises. -/
theorem roundArrivals_counter {c : RoundContent} {o : Orders} {s : State} {d : Counter} {n : Nat}
    (hd : d ∉ [Counter.rowsWithheld, .fillPieces]) (hcount : s.port.counters.length = 22)
    (h : ∀ u, u.isMember = s.isMember → u.settle = s.settle → u.port.counters.length = 22 → u.counter d = s.counter d →
      (settleRoundStart c u).counter d = n) : (roundArrivals c o s).counter d = n := by
  have hother {u : State} {a : RoundArrival} (ha : a ≠ .settle) : d ∉ arrivalCounters a := by
    cases a with
    | settle => exact absurd rfl ha
    | silence => exact hd
    | number => exact List.not_mem_nil
    | ageing => exact List.not_mem_nil
    | waits => exact List.not_mem_nil
  refine roundArrivals_passes (a₀ := .settle)
    (P := fun u => u.settle = s.settle ∧ u.port.counters.length = 22 ∧ u.counter d = s.counter d)
    (Q := fun u => u.counter d = n) (fun u a ha _ hu => ?_) (fun u a ha _ hu => ?_) (fun u w hu => ?_) ⟨rfl, hcount, rfl⟩
  · obtain ⟨hsettle, hlength, hcounter⟩ := hu
    have hreports := arrive_reports c u a
    exact ⟨(arrive_settle ha u).trans hsettle, hreports.length.trans hlength,
      (hreports.counters d (hother (u := u) ha)).trans hcounter⟩
  · exact ((arrive_reports c u a).counters d (hother (u := u) ha)).trans hu
  · exact h u (isMember_of_writes w (by decide)) hu.1 hu.2.1 hu.2.2

theorem roundOrder_perm (o : Orders) : (roundOrder o).Perm [.number, .ageing, .silence, .waits, .settle] :=
  (List.perm_ext_iff_of_nodup (roundOrder_once o).1 (by decide)).2 fun a =>
    iff_of_true ((roundOrder_once o).2 a) (by cases a <;> decide)

/-- The round start a discarded burst makes at a MEMBER. -/
theorem burstTaken_discarded_round {s : State} {heard : List Byte} {j : Judgment} (hm : s.isMember = true)
    (h : Hears s heard true j) (hj : j.discarded = true) (o : Orders) :
    exec (.burstTaken heard o) s = .next (roundArrivals .nothing o (countJudgment j (afterBurst s))) := by
  have hm' : (countJudgment j (afterBurst s)).isMember = true := by
    rw [isMember_of_writes (countJudgment_writes j (afterBurst s)) (by decide)]
    exact hm
  rw [burstTaken_discarded h hj, if_pos rfl, roundStart_of_member hm']

theorem countJudgment_of_discarded {j : Judgment} (h : j.discarded = true) (s : State) : countJudgment j s =
    raise (if j = .checkFailure then .checkFailures else .misplacedBursts) 1 s := by
  cases j with
  | valid b => exact absurd h Bool.false_ne_true
  | checkFailure => rfl
  | misplaced => rfl
  | malformed => rfl

/-- Settles O36. -/
theorem roundStartTakesMark : Obligations.RoundStartTakesMark := by
  intro s heard o hm hcount
  refine ⟨fun k m h => ?_, fun k m h => burstTaken_delivered h hm o, roundOrder_perm o, fun j hj h => ?_⟩
  · obtain ⟨repeated, hexec⟩ := burstTaken_heard h o
    have hm' : (afterBurst s).isMember = true := hm
    have hexec : exec (.burstTaken heard o) s = .next (roundArrivals (.received k m) o (afterBurst s)) :=
      hexec.trans (congrArg Host.Outcome.next (roundStart_of_member hm' _ o))
    have w := roundArrivals_writes (.received k m) o (afterBurst s)
    have hmember {u : State} (hu : u.isMember = (afterBurst s).isMember) : u.isMember = true := hu.trans hm'
    refine ⟨_, hexec, w .bus (by decide), w .station (by decide), roundArrivals_roundTimer _ o _, fun ⟨hlow, hhigh⟩ => ?_,
      fun hquiet => ?_, fun hone hkind => ?_, fun hone hkind => ?_, rfl, fun u hu => settleRoundStart_of_member hu _⟩
    · refine roundArrivals_settle (fun u wu hu => ?_) o
      rw [settleRoundStart_settle_of_ahead (hmember (isMember_of_writes wu (by decide))) (by rw [hu]; exact hlow)
        (by rw [hu]; exact hhigh), hu]
      rfl
    · have hquiet : (RoundContent.received k m).Quiet (afterBurst s) := .inr hquiet
      refine ⟨roundArrivals_settle_of_quiet hm' hquiet o, ?_⟩
      exact .followedBy ((setBus_writes _ _).widen (by decide)) (roundArrivals_of_quiet hquiet o).1 (by decide)
    · refine roundArrivals_counter (s := afterBurst s) (by decide) hcount fun u hu hsettle hlength hcounter => ?_
      have hone : forward (raiseOpenAge u).settle.frame m.settled = 1 := by
        show forward u.settle.frame _ = 1
        rw [hsettle]
        exact hone
      rw [settleRoundStart_of_member (hmember hu)]
      show (takeMark k m (raiseOpenAge u)).counter _ = _
      rw [takeMark_of_oneAhead hone, hkind]
      refine (settleCommit_counter (s := raiseOpenAge u) hlength).trans ?_
      rw [show (raiseOpenAge u).counter .commitsTaken = u.counter .commitsTaken from rfl, hcounter]
      rfl
    · refine roundArrivals_counter (s := afterBurst s) (by decide) hcount fun u hu hsettle hlength hcounter => ?_
      have hone : forward (raiseOpenAge u).settle.frame m.settled = 1 := by
        show forward u.settle.frame _ = 1
        rw [hsettle]
        exact hone
      rw [settleRoundStart_of_member (hmember hu)]
      show (takeMark k m (raiseOpenAge u)).counter _ = _
      rw [takeMark_of_oneAhead hone, hkind]
      refine (settleAbandon_counter (s := raiseOpenAge u) hlength _).trans ?_
      rw [show (raiseOpenAge u).counter .abandonsTaken = u.counter .abandonsTaken from rfl, hcounter]
      rfl
  · have hexec := burstTaken_discarded_round hm h hj o
    rw [countJudgment_of_discarded hj] at hexec
    generalize hc : (if j = .checkFailure then Counter.checkFailures else .misplacedBursts) = c at hexec ⊢
    have hcase : c = .checkFailures ∨ c = .misplacedBursts := by
      subst hc
      split
      · exact .inl rfl
      · exact .inr rfl
    have hround : c ∉ roundCounters := by rcases hcase with rfl | rfl <;> decide
    have hm' : (raise c 1 (afterBurst s)).isMember = true := hm
    have w := roundArrivals_writes .nothing o (raise c 1 (afterBurst s))
    have hcounter : (roundArrivals .nothing o (raise c 1 (afterBurst s))).counter c = min 65535 (s.counter c + 1) :=
      ((roundArrivals_report _ o _).counters c hround).trans (counter_raise_self (s := afterBurst s) hcount)
    refine ⟨_, hexec, w .bus (by decide), w .station (by decide), roundArrivals_roundTimer _ o _,
      roundArrivals_settle_of_quiet (c := .nothing) hm' trivial o, ?_, rfl, fun h => ?_, fun h => ?_⟩
    · refine .followedBy (gs := quietFields) ?_ (roundArrivals_of_quiet (c := .nothing) trivial o).1 (by decide)
      exact .followedBy (gs := [.port]) ((setBus_writes _ _).widen (by decide)) (raise_writes _ _ _) (by decide)
    · rw [if_pos h] at hc
      subst hc
      exact hcounter
    · rw [if_neg h] at hc
      subst hc
      exact hcounter

/-! ## The mark timer (R18 to R20, R50, R65 to R68) -/

section
variable {s : State}

theorem expireMarkTimer_of_deaf (h : s.roundTimer.markTimer = none ∨ s.station.state = .loading ∨ s.station.state = .isolated) :
    expireMarkTimer s = s := by
  unfold expireMarkTimer
  split
  · rfl
  next hrunning =>
    rcases h with h | h | h
    · exact absurd (by rw [h]; rfl) hrunning
    · rw [State.isListen, State.isMember, h]
      rfl
    · rw [State.isListen, State.isMember, h]
      rfl

theorem expireMarkTimer_of_listen (h : s.station.state = .listen) (ht : s.roundTimer.markTimer ≠ none) :
    expireMarkTimer s = expireListening s := by
  rw [expireMarkTimer, if_neg (by rwa [Option.isNone_iff_eq_none]), if_pos (isListen_iff.2 h)]

theorem expireMarkTimer_of_member (h : s.station.state = .member) (ht : s.roundTimer.markTimer ≠ none) :
    expireMarkTimer s = expireMember s := by
  rw [expireMarkTimer, if_neg (by rwa [Option.isNone_iff_eq_none]), if_neg (by rw [isListen_iff, h]; simp),
    if_pos (isMember_iff.2 h)]

theorem commitTest_iff : commitTest s = true ↔ voters s ≠ [] ∧ ∀ e ∈ voters s,
    (e.status = .self → completeFor s (s.settle.frame + 1) = true) ∧
    (e.status = .present → ∃ r, e.record = some r ∧ r.settled = s.settle.frame ∧ r.ready = some (s.settle.frame + 1)) := by
  rw [commitTest, Bool.and_eq_true, Bool.not_eq_true', List.isEmpty_eq_false_iff, List.all_eq_true]
  refine and_congr_right fun _ => forall₂_congr fun e he => ?_
  have hvotes : e.status = .present ∨ e.status = .self := by
    obtain ⟨-, h⟩ := List.mem_filter.1 he
    simp only [MemberEntry.votes, Bool.and_eq_true, Bool.or_eq_true, beq_iff_eq] at h
    exact h.2
  rcases hvotes with h | h
  · rw [entryReady, if_neg (by rw [h]; decide)]
    cases hr : e.record with
    | none => simp [h]
    | some r => simp [h, State.openFrame]
  · rw [entryReady, if_pos h]
    simp [h, State.openFrame]

/-- The MARK composed at an expiry, and whether it is a verdict (R65, R67, R68). -/
theorem composeVerdict_cases :
    (commitTest s = true → composeVerdict s = (s.settle.frame + 1, .commit, true)) ∧
    (commitTest s = false → s.image.deadline ≤ s.settle.openAge → composeVerdict s = (s.settle.frame + 1, .abandon, true)) ∧
    (commitTest s = false → s.settle.openAge < s.image.deadline →
      composeVerdict s = (s.settle.frame, s.settle.kind, false)) := by
  refine ⟨fun h => if_pos h, fun h hage => ?_, fun h hage => ?_⟩
  · rw [composeVerdict, h, if_neg Bool.false_ne_true, if_pos hage]
    rfl
  · rw [composeVerdict, h, if_neg Bool.false_ne_true, if_neg (Nat.not_le.2 hage)]

end

/-- Settles O37. -/
theorem markTimerExpirySendsMark : Obligations.MarkTimerExpirySendsMark := by
  intro s
  refine ⟨fun h => congrArg _ (expireMarkTimer_of_deaf h), fun hl ht hn => ?_, fun hl ht hn => ?_, fun hm ht hheard => ?_,
    fun hm ht hquiet hp => ?_⟩
  · have hcount : saturate Config.silentExpiryLimit s.station.silentExpiries 1 = s.station.silentExpiries + 1 :=
      Nat.min_eq_right (show _ ≤ 4 by omega)
    refine congrArg Host.Outcome.next ((expireMarkTimer_of_listen hl ht).trans ?_)
    unfold expireListening
    dsimp only
    rw [show (restartMarkTimer s).station.silentExpiries = s.station.silentExpiries from rfl, hcount,
      if_neg (show ¬ Config.silentExpiryLimit ≤ s.station.silentExpiries + 1 from Nat.not_le.2 (show _ < 4 by omega))]
    rfl
  · refine (congrArg Host.Outcome.next (expireMarkTimer_of_listen hl ht)).trans ?_
    refine (congrArg Host.Outcome.next (if_pos ?_)).symm
    rw [isListen_iff.2 hl, Option.isSome_iff_ne_none.2 ht, 
      decide_eq_true (show Config.silentExpiryLimit ≤ s.station.silentExpiries + 1 from Nat.succ_le_succ hn)]
    rfl
  · refine congrArg Host.Outcome.next ((expireMarkTimer_of_member hm ht).trans ?_)
    exact if_pos (Option.isSome_iff_ne_none.2 hheard)
  · have hstopped : (s.setRoundTimer { s.roundTimer with markTimer := none }).bus.position = .tail := hp
    have hexpire : expireMember s = sendMark (s.setRoundTimer { s.roundTimer with markTimer := none }) :=
      if_neg (by rw [Option.isSome_iff_ne_none]; exact fun h => h hquiet)
    refine ⟨_, composeMark s, (composeVerdict s).2.2, congrArg Host.Outcome.next
      ((expireMarkTimer_of_member hm ht).trans hexpire), ?_, ?_, ?_, rfl, ?_⟩
    · exact .followedBy ((setRoundTimer_writes _ _).widen (by decide)) (sendMark_writes _) (by decide)
    · exact sendMark_writes (s.setRoundTimer { s.roundTimer with markTimer := none }) .roundTimer (by decide)
    · unfold sendMark send
      rw [hearStart_tail hstopped]
      rfl
    · rintro vs hvs allReady hready
      have hvoters : vs = voters s := hvs
      rw [hvoters, ← commitTest_iff] at hready
      obtain ⟨hcommit, habandon, hstay⟩ := composeVerdict_cases (s := s)
      refine ⟨fun h => ?_, fun h hage => ?_, fun h hage => ?_⟩
      · rw [composeMark, hcommit (hready.1 h)]
        exact ⟨rfl, rfl, rfl⟩
      · rw [composeMark, habandon (Bool.eq_false_iff.2 fun hc => h (hready.2 hc)) hage]
        exact ⟨rfl, rfl, rfl⟩
      · rw [composeMark, hstay (Bool.eq_false_iff.2 fun hc => h (hready.2 hc)) hage]
        exact ⟨rfl, rfl, rfl⟩

end Sys2Proof.Machine
end

section
/-! The back bank: placements, clears, and the scan start with its swap. -/

namespace Sys2Proof.Machine

/-! ## The placement engine (R114, R116) -/

section
variable {s : State}

theorem mayPlace_iff : mayPlace s = true ↔ s.engine = .idle ∧ s.landing ≠ [] ∧ s.banks.clear = .idle ∧
    s.banks.swapPending = none ∧ s.banks.backFrame = some (s.settle.frame + 1) := by
  simp only [mayPlace, Bool.and_eq_true, beq_iff_eq, Bool.not_eq_true', List.isEmpty_eq_false_iff, Option.isNone_iff_eq_none,
    State.openFrame, and_assoc]

theorem tryPlace_engine : (tryPlace s).engine = if mayPlace s then .placing else s.engine := by
  unfold tryPlace
  split
  · rfl
  · rfl

end

theorem back_setBack (c : BankControl) (b : Bank) : (c.setBack b).back = b := by
  unfold BankControl.setBack BankControl.back
  cases c.front <;> rfl

theorem setBack_setBack_back (c : BankControl) (b : Bank) : c.setBack (c.setBack b).back = c.setBack b := by rw [back_setBack]

/-- A list taken with its places, some places kept. -/
theorem filterMap_zipIdx {α β : Type} (l : List α) (d : α) (keep : Nat → Bool) (f : Nat → α → β) :
    l.zipIdx.filterMap (fun x => if keep x.2 then some (f x.2 x.1) else none) =
      ((List.range l.length).filter keep).map (fun k => f k (l.getD k d)) := by
  have hzip : l.zipIdx = (List.range l.length).map (fun k => (l.getD k d, k)) := by
    refine List.ext_getElem (by simp) fun i h _ => ?_
    rw [List.length_zipIdx] at h
    simp [h]
  rw [hzip, List.filterMap_map, ← List.filterMap_eq_filter, List.map_filterMap]
  refine List.filterMap_congr fun k _ => ?_
  simp only [Function.comp_apply, Option.guard]
  split
  · rfl
  · rfl

/-- The places of a piece that fall in its placed span. -/
def placedIndices (e : Expected) (n : Nat) : List Nat :=
  (List.range n).filter (fun k => e.placedFirst ≤ e.pieceFirst + k && e.pieceFirst + k ≤ e.placedLast)

/-- The bank address of place `k` of a piece. -/
def placedAddress (img : Image) (e : Expected) (p : Piece) (k : Nat) : Nat :=
  (img.panelPosition (e.pieceFirst + k - img.tileX) (p.row - img.tileY)).2 * img.panelWidth +
    (img.panelPosition (e.pieceFirst + k - img.tileX) (p.row - img.tileY)).1

theorem placedPixels_eq (img : Image) (e : Expected) (p : Piece) : placedPixels img e p =
    (placedIndices e (p.pixels img.background).length).map
      (fun k => (placedAddress img e p k, (p.pixels img.background).getD k 0)) :=
  filterMap_zipIdx (p.pixels img.background) 0 (fun k => e.placedFirst ≤ e.pieceFirst + k && e.pieceFirst + k ≤ e.placedLast)
    (fun k v => (placedAddress img e p k, v))

theorem placementWrites_of_entry {s : State} {p : Piece} {e : CoverageEntry}
    (h : coverageEntry s.image s.coverage p.stream p.row p.index = some e) :
    placementWrites s p = placedPixels s.image e.expected p := by rw [placementWrites, h]

/-- Settles O50. -/
theorem placementAndClearWriteBackBank : Obligations.PlacementAndClearWriteBackBank := by
  refine ⟨fun s p rest e hplacing hlanding hentry hwf => ?_, fun s h => congrArg _ (completePlacement_of_idle h),
    fun s hclear => ?_, fun s h => congrArg _ (endBankClear_of_not_clearing h)⟩
  · have heq := completePlacement_of_placing hplacing hlanding
    rw [placementWrites_of_entry hentry, placedPixels_eq] at heq
    have hbanks : (completePlacement s).banks = s.banks.setBack (s.banks.back.writeAll
        ((placedIndices e.expected (p.pixels s.image.background).length).map
          (fun k => (placedAddress s.image e.expected p k, (p.pixels s.image.background).getD k 0)))) := by
      rw [heq, tryPlace_banks]
      rfl
    refine ⟨_, rfl, completePlacement_writes s, ?_, ?_, ?_, ?_⟩
    · rw [heq, tryPlace_landing]
      rfl
    · rw [heq, tryPlace_engine]
      refine if_congr ?_ rfl rfl
      rw [mayPlace_iff]
      show Engine.idle = .idle ∧ rest ≠ [] ∧ (s.banks.setBack _).clear = .idle ∧ (s.banks.setBack _).swapPending = none ∧
        (s.banks.setBack _).backFrame = _ ↔ _
      rw [setBack_clear, setBack_swapPending, setBack_backFrame]
      exact and_iff_right rfl
    · rw [hbanks, setBack_setBack_back]
    · intro addressOf haddress written hwritten
      obtain rfl : addressOf = placedAddress s.image e.expected p := funext haddress
      obtain rfl : written = placedIndices e.expected (p.pixels s.image.background).length := hwritten
      rw [hbanks, back_setBack]
      refine ⟨fun a ha => ?_, fun k hk hn => ?_⟩
      · refine Bank.read_writeAll_other a _ _ hwf fun q hq => ?_
        obtain ⟨k, hk, rfl⟩ := List.mem_map.1 hq
        exact ha k hk
      · refine Bank.read_writeAll_of_mem _ _ hwf ?_ _ (List.mem_map_of_mem hk)
        rw [List.map_map]
        exact hn
  · have heq := endBankClear_of_clearing hclear
    have hbanks : (endBankClear s).banks =
        { s.banks.setBack (Bank.cleared s.image.background) with clear := .idle } := by
      rw [heq, tryPlace_banks]
      rfl
    have hback : (endBankClear s).banks.back = Bank.cleared s.image.background := by
      rw [hbanks]
      exact back_setBack _ _
    refine ⟨_, rfl, endBankClear_writes s, ?_, fun a => ?_, ?_⟩
    · rw [hback, hbanks]
    · rw [hback, Bank.read_cleared]
    · rw [heq, tryPlace_engine]
      refine if_congr ?_ rfl rfl
      rw [mayPlace_iff]
      show s.engine = .idle ∧ s.landing ≠ [] ∧ ClearState.idle = .idle ∧ (s.banks.setBack _).swapPending = none ∧
        (s.banks.setBack _).backFrame = _ ↔ _
      rw [setBack_swapPending, setBack_backFrame]
      exact and_congr_right fun _ => and_congr_right fun _ => and_iff_right rfl

/-! ## The panel scan (R131 to R133) -/

theorem scanStart_eq (s : State) : scanStart s = (completeSwap s).setScan
    { (completeSwap s).scan with timer := some (completeSwap s).image.scanPeriod, position := .row 0 } := rfl

theorem panelOutput_of_row {s : State} {y : Nat} (h : s.scan.position = .row y) : panelOutput s = panelRow s y := by
  rw [panelOutput, h]

theorem panelRow_zero (s : State) : panelRow s 0 = (List.range s.image.panelWidth).map
      (fun x => { pod := s.banks.frontBank.read x, povs := x == 0, pohs := false }) ++
    List.replicate 8 { pod := 0, povs := false, pohs := true } := by
  simp [panelRow, Image.bankAddress, atScanStart]

theorem panelRow_of_ne {s : State} {y : Nat} (h : y ≠ 0) : panelRow s y = (List.range s.image.panelWidth).map
      (fun x => { pod := s.banks.frontBank.read (y * s.image.panelWidth + x), povs := false, pohs := false }) ++
    List.replicate 8 { pod := 0, povs := false, pohs := true } := by
  simp [panelRow, Image.bankAddress, atScanStart, h]

theorem other_ne (b : BankName) : b.other ≠ b := by cases b <;> decide

/-- What a pending swap leaves (R110, R132). -/
theorem completeSwap_leaves {s : State} {f : Frame} (h : s.banks.swapPending = some f) :
    (completeSwap s).banks.front = s.banks.front.other ∧ (completeSwap s).banks.frontBank = s.banks.back ∧
      (completeSwap s).banks.shown = some f ∧ (completeSwap s).banks.swapPending = none ∧
      (completeSwap s).banks.backFrame = some (s.settle.frame + 1) ∧ (completeSwap s).banks.clear = .clearingBack ∧
      (completeSwap s).coverage = (if s.coverage.openFor = some (s.settle.frame + 1) then s.coverage
        else s.coverage.open (s.settle.frame + 1)) ∧
      (s.port.counters.length = 22 → (completeSwap s).counter .swaps = min 65535 (s.counter .swaps + 1)) := by
  rw [completeSwap_of_pending h]
  obtain ⟨hswap, hframe, hshown, hclear, hcoverage⟩ := reopenBack_leaves (swapped f s)
  obtain ⟨hfront, hbank⟩ := reopenBack_front (swapped f s)
  refine ⟨hfront, hbank.trans (exchanged_front s.banks), hshown, hswap, hframe, hclear, hcoverage, fun hcount => ?_⟩
  rw [State.counter, reopenBack_writes (swapped f s) .port (by decide)]
  exact counter_raise_self (s := s.setBanks { s.banks with front := s.banks.front.other, shown := some f, swapPending := none })
    hcount

theorem scanOn_of_row {s : State} {y : Nat} (h : s.scan.position = .row y) :
    scanOn s = if y + 1 < s.image.panelHeight then s.setScan { s.scan with position := .row (y + 1) } else s := by
  rw [scanOn, h]

/-- Settles O51. -/
theorem scanStartSwapsAndScans : Obligations.ScanStartSwapsAndScans := by
  intro s
  refine ⟨fun h => ?_, fun h => ?_, rfl, fun h => ?_, fun y h hy => ?_, fun hempty => ?_⟩
  · exact congrArg _ (if_neg (by rw [h]; exact Bool.false_ne_true))
  · have hscan : (completeSwap s).scan = s.scan := completeSwap_writes s .scan (by decide)
    have himage : (completeSwap s).image = s.image := image_of_writes (completeSwap_writes s) (by decide)
    refine ⟨scanStart s, congrArg _ (if_pos (Option.isSome_iff_ne_none.2 h)), ?_, ?_, ?_, fun hnone => ?_, fun f hf => ?_⟩
    · exact .followedBy ((completeSwap_writes s).widen (by decide)) (setScan_writes _ _) (by decide)
    · rw [scanStart_eq, State.setScan_scan, hscan, himage]
    · rw [panelOutput_of_row (y := 0) rfl, panelRow_zero, show (scanStart s).image = s.image from himage]
    · rw [scanStart_eq, completeSwap_of_none hnone]
      exact setScan_writes _ _
    · obtain ⟨hfront, hbank, hshown, hswap, hframe, hclear, hcoverage, hcount⟩ := completeSwap_leaves hf
      refine ⟨fun hsame => other_ne _ (hfront.symm.trans hsame), hbank, hshown, hswap, hframe, hclear, fun hopen => ?_,
        fun hopen => ?_, hcount⟩
      · exact hcoverage.trans (if_pos hopen)
      · rw [show (scanStart s).coverage = _ from hcoverage.trans (if_neg hopen)]
        exact open_openedFor _ _
  · rw [panelOutput, h]
    rfl
  · rw [panelOutput_of_row h, panelRow_of_ne hy]
  · have hstep : step s = .next (scanOn s) := by rw [step, hempty]
    refine ⟨fun h => ?_, fun y h hy => ?_, fun y h hy => ?_⟩
    · rw [hstep, scanOn, h]
    · rw [hstep, scanOn_of_row h, if_pos hy]
    · rw [hstep, scanOn_of_row h, if_neg (Nat.not_lt.2 hy)]

end Sys2Proof.Machine
end

section
/-! What a settle reaches: the notice, block by block. -/

namespace Sys2Proof.Machine

/-! ## The notice before bank control (R58, R88, R113, R161) -/

/-- The state a notice leaves to bank control. -/
def beforeBanks (wasMember : Bool) (s : State) : State := discardLanding (sourceNotice (recomputeEligibility wasMember s))

section
variable (a : Action) (f : Frame) (complete wasMember : Bool) {s : State}

theorem beforeNotice_writes (s : State) :
    OnlyWrites [.members, .capture, .ring, .publishQueue, .responder] s (sourceNotice (recomputeEligibility wasMember s)) :=
  .followedBy ((recomputeEligibility_writes _ _).widen (by decide)) (sourceNotice_writes _) (by decide)

theorem beforeBanks_writes (s : State) : OnlyWrites [.members, .capture, .ring, .publishQueue, .responder, .landing, .banks,
    .engine, .freeSeq] s (beforeBanks wasMember s) :=
  .followedBy ((beforeNotice_writes wasMember s).widen (by decide)) (discardLanding_writes _) (by decide)

theorem notice_of_sink (h : s.image.sinkRole = true) :
    notice a f complete wasMember s = overtakeEntries (bankNotice a f complete (beforeBanks wasMember s)) :=
  sinkNotice_of_sink (by rw [image_of_writes (beforeNotice_writes wasMember s) (by decide)]; exact h) a f complete

theorem notice_of_not_sink (h : s.image.sinkRole = false) :
    notice a f complete wasMember s = sourceNotice (recomputeEligibility wasMember s) :=
  sinkNotice_of_not_sink (by rw [image_of_writes (beforeNotice_writes wasMember s) (by decide)]; exact h) a f complete

/-- What bank control finds: its own state but for a stopped placement. -/
theorem beforeBanks_banks (s : State) :
    (beforeBanks wasMember s).banks.swapPending = s.banks.swapPending ∧
      (beforeBanks wasMember s).banks.shown = s.banks.shown ∧ (beforeBanks wasMember s).banks.clear = s.banks.clear ∧
      (s.engine = .idle → (beforeBanks wasMember s).banks = s.banks) := by
  have hbanks : (sourceNotice (recomputeEligibility wasMember s)).banks = s.banks :=
    beforeNotice_writes wasMember s .banks (by decide)
  have hengine : (sourceNotice (recomputeEligibility wasMember s)).engine = s.engine :=
    beforeNotice_writes wasMember s .engine (by decide)
  obtain ⟨hswap, -, hshown, hclear⟩ := stopPlacement_banks (sourceNotice (recomputeEligibility wasMember s))
  rw [hbanks] at hswap hshown hclear
  refine ⟨hswap, hshown, hclear, fun h => ?_⟩
  show (stopPlacement (sourceNotice (recomputeEligibility wasMember s))).banks = s.banks
  rw [stopPlacement, hengine, h]
  exact hbanks

theorem beforeBanks_landing (s : State) : (beforeBanks wasMember s).landing = [] ∧ (beforeBanks wasMember s).engine = .idle :=
  ⟨rfl, discardLanding_engine _⟩

theorem notice_members (s : State) : (notice a f complete wasMember s).members =
    s.members.map (fun e => { e with eligible := eligibleAfter s.image wasMember e }) :=
  (sinkNotice_writes a f complete _ .members (by decide)).trans (sourceNotice_writes _ .members (by decide))

/-! ## The notice at a source -/

theorem notice_source (h : s.image.sourceRole = true) :
    (notice a f complete wasMember s).capture = lockedCapture s.openFrame s.capture ∧
      (notice a f complete wasMember s).ring = [] ∧ (notice a f complete wasMember s).publishQueue = [] ∧
      (notice a f complete wasMember s).responder = .reset := by
  have hsource : sourceNotice (recomputeEligibility wasMember s) = _ :=
    sourceNotice_of_source (s := recomputeEligibility wasMember s) h
  have w : OnlyWrites _ (sourceNotice (recomputeEligibility wasMember s)) (notice a f complete wasMember s) :=
    sinkNotice_writes a f complete _
  rw [hsource] at w
  exact ⟨w .capture (by decide), w .ring (by decide), w .publishQueue (by decide), w .responder (by decide)⟩

theorem notice_writes_of_not_source (h : s.image.sourceRole = false) : OnlyWrites [.members, .coverage, .landing, .engine,
    .banks, .freeSeq, .requester, .port] s (notice a f complete wasMember s) := by
  have hsource : sourceNotice (recomputeEligibility wasMember s) = recomputeEligibility wasMember s :=
    sourceNotice_of_not_source (s := recomputeEligibility wasMember s) h
  unfold notice
  rw [hsource]
  exact .followedBy ((recomputeEligibility_writes _ _).widen (by decide)) (sinkNotice_writes _ _ _ _) (by decide)

theorem notice_writes_of_not_sink (h : s.image.sinkRole = false) : OnlyWrites [.members, .capture, .ring, .publishQueue,
    .responder] s (notice a f complete wasMember s) := by
  rw [notice_of_not_sink a f complete wasMember h]
  exact beforeNotice_writes wasMember s

end

/-! ## The notice at bank control (R127 to R130) -/

section
variable {s : State} {a : Action} {f : Frame} {complete : Bool}

/-- A notice that reopens the back bank. -/
theorem reopened {u : State} (hbanks : u.banks = s.banks) (hsettle : u.settle = s.settle) :
    (reopenBack u).banks.swapPending = s.banks.swapPending ∧ (reopenBack u).banks.backFrame = some s.openFrame ∧
      (reopenBack u).banks.clear = .clearingBack ∧ (reopenBack u).banks.shown = s.banks.shown := by
  obtain ⟨hswap, hframe, hshown, hclear, -⟩ := reopenBack_leaves u
  rw [hbanks] at hswap hshown
  rw [State.openFrame, hsettle] at hframe
  exact ⟨hswap, hframe, hclear, hshown⟩

theorem straggle_same (f : Frame) (d : Byte) (s : State) :
    (straggle f d s).banks = s.banks ∧ (straggle f d s).settle = s.settle :=
  ⟨straggle_writes f d s .banks (by decide), straggle_writes f d s .settle (by decide)⟩

/-- Behind a pending swap the back bank waits (R130). -/
theorem bankNotice_banks_of_pending {g : Frame} (h : s.banks.swapPending = some g) :
    (bankNotice a f complete s).banks = s.banks := by
  rw [bankNotice_of_pending h]
  unfold noticeBehindSwap
  cases a with
  | commit => exact (straggle_same f 1 s).1
  | abandon => rfl
  | resync => rfl
  | join => rfl

/-- A COMMIT taken while complete sets a swap pending (R127, R129). -/
theorem bankNotice_banks_of_complete (h : s.banks.swapPending = none) :
    (bankNotice .commit f true s).banks = { s.banks with swapPending := some f } := by
  rw [bankNotice_of_none h]
  rfl

/-- Everything else reopens the back bank with a clear (R127, R128). -/
theorem bankNotice_banks_of_reopen (h : s.banks.swapPending = none)
    (ha : (a = .commit ∧ complete = false) ∨ a = .abandon ∨ a = .resync) :
    (bankNotice a f complete s).banks.swapPending = none ∧
      (bankNotice a f complete s).banks.backFrame = some s.openFrame ∧
      (bankNotice a f complete s).banks.clear = .clearingBack ∧ (bankNotice a f complete s).banks.shown = s.banks.shown := by
  rw [bankNotice_of_none h, ← h]
  rcases ha with ⟨rfl, rfl⟩ | rfl | rfl
  · exact reopened (straggle_same f 0 s).1 (straggle_same f 0 s).2
  · exact reopened rfl rfl
  · exact reopened rfl rfl

theorem bankNotice_banks_of_join (h : s.banks.swapPending = none) :
    (bankNotice .join f complete s).banks = { s.banks with backFrame := some s.openFrame } ∧
      (bankNotice .join f complete s).coverage = s.coverage.open s.openFrame := by
  rw [bankNotice_of_none h]
  exact ⟨rfl, rfl⟩

theorem bankNotice_shown (ha : a ≠ .join) : (bankNotice a f complete s).banks.shown = s.banks.shown := by
  cases h : s.banks.swapPending with
  | some g => rw [bankNotice_banks_of_pending h]
  | none =>
    cases a with
    | commit =>
      cases complete with
      | true => rw [bankNotice_banks_of_complete h]
      | false => exact (bankNotice_banks_of_reopen h (.inl ⟨rfl, rfl⟩)).2.2.2
    | abandon => exact (bankNotice_banks_of_reopen h (.inr (.inl rfl))).2.2.2
    | resync => exact (bankNotice_banks_of_reopen h (.inr (.inr rfl))).2.2.2
    | join => exact absurd rfl ha

/-- STRAGGLE is all a notice reports, and only a COMMIT that finds the sink not complete or a swap pending does (R128, R130). -/
theorem bankNotice_port (s : State) : (bankNotice a f complete s).port =
    if a = .commit ∧ (s.banks.swapPending ≠ none ∨ complete = false) then
      (straggle f (if s.banks.swapPending = none then 0 else 1) s).port else s.port := by
  have hreopen (u : State) : (reopenBack u).port = u.port := reopenBack_writes u .port (by decide)
  cases h : s.banks.swapPending with
  | some g =>
    rw [bankNotice_of_pending h]
    cases a with
    | commit => rfl
    | abandon => rfl
    | resync => rfl
    | join => rfl
  | none =>
    rw [bankNotice_of_none h]
    cases a with
    | commit =>
      cases complete with
      | true => rfl
      | false => exact hreopen _
    | abandon => exact hreopen _
    | resync => exact hreopen _
    | join => rfl

end

end Sys2Proof.Machine
end

section
/-! A settle reaches every block told of it. -/

namespace Sys2Proof.Machine

/-- From `s` to `t` the settle unit moves to frame `f` with kind `k`, the port is told, giving `u`, and the notice of action `a` follows. -/
structure SettlesBy (s u t : State) (f : Frame) (k : SettleKind) (a : Action) (complete : Bool) : Prop where
  notice : t = notice a f complete true u
  writes : OnlyWrites [.settle, .port] s u
  settle : u.settle = { s.settle with frame := f, kind := k, openAge := 0 }
  settled : a ≠ .join

theorem settleCommit_settles (s : State) : SettlesBy s (raise .commitsTaken 1 (advance s.openFrame .commit s)) (settleCommit s)
    s.openFrame .commit .commit (completeFor s s.openFrame) :=
  ⟨rfl, .followedBy (gs := [.port]) ((advance_writes _ _ _).widen (by decide)) (raise_writes _ _ _) (by decide), rfl, by decide⟩

theorem settleAbandon_settles (p : SettlePath) (s : State) : SettlesBy s
    (post .abandonApplied s.openFrame p.detail (raise .abandonsTaken 1 (advance s.openFrame .abandon s))) (settleAbandon p s)
    s.openFrame .abandon .abandon false := by
  refine ⟨rfl, .followedBy (gs := [.port]) ?_ (post_writes _ _ _ _) (by decide), post_settle _ _ _ _, by decide⟩
  exact .followedBy (gs := [.port]) ((advance_writes _ _ _).widen (by decide)) (raise_writes _ _ _) (by decide)

theorem resync_settles (f : Frame) (k : SettleKind) (s : State) : SettlesBy s
    (post .resync f (toByte (min Config.count8 (forward s.settle.frame f))) (raise .resyncs 1 (advance f k s))) (resync f k s)
    f k .resync false := by
  refine ⟨rfl, .followedBy (gs := [.port]) ?_ (post_writes _ _ _ _) (by decide), post_settle _ _ _ _, by decide⟩
  exact .followedBy (gs := [.port]) ((advance_writes _ _ _).widen (by decide)) (raise_writes _ _ _) (by decide)

theorem eligibleAfter_member (img : Image) (e : MemberEntry) : eligibleAfter img true e =
    ((e.status == .present && e.sink) || (e.status == .self && img.sinkRole)) := by
  unfold eligibleAfter
  cases e.status <;> simp

namespace SettlesBy

variable {s u t : State} {f : Frame} {k : SettleKind} {a : Action} {complete : Bool} (h : SettlesBy s u t f k a complete)
include h

theorem image : u.image = s.image := image_of_writes h.writes (by decide)

theorem openFrame : u.openFrame = f + 1 := by rw [State.openFrame, h.settle]

theorem settle_eq : t.settle = { s.settle with frame := f, kind := k, openAge := 0 } := by
  rw [h.notice, notice_settle, h.settle]

theorem members : t.members = s.members.map (fun e => { e with
    eligible := (e.status == .present && e.sink) || (e.status == .self && s.image.sinkRole) }) := by
  have hmembers : u.members = s.members := h.writes .members (by decide)
  rw [h.notice, notice_members, hmembers, h.image]
  exact List.map_congr_left fun e _ => congrArg (fun b => { e with eligible := b }) (eligibleAfter_member _ _)

theorem source (hsource : s.image.sourceRole = true) : t.ring = [] ∧ t.publishQueue = [] ∧ t.responder = .reset ∧
    t.capture = lockedCapture (f + 1) s.capture := by
  have hcapture : u.capture = s.capture := h.writes .capture (by decide)
  obtain ⟨hlocked, hring, hqueue, hresponder⟩ := notice_source a f complete true (s := u) (by rw [h.image]; exact hsource)
  rw [← h.notice] at *
  rw [h.openFrame, hcapture] at hlocked
  exact ⟨hring, hqueue, hresponder, hlocked⟩

theorem writes_of_not_source (hsource : s.image.sourceRole = false) : OnlyWrites [.settle, .members, .coverage, .landing,
    .engine, .banks, .freeSeq, .requester, .port] s t := by
  have w := notice_writes_of_not_source a f complete true (s := u) (by rw [h.image]; exact hsource)
  rw [← h.notice] at w
  exact .followedBy (h.writes.widen (by decide)) w (by decide)

theorem writes_of_not_sink (hsink : s.image.sinkRole = false) : OnlyWrites [.settle, .members, .capture, .ring, .publishQueue,
    .responder, .port] s t := by
  have w := notice_writes_of_not_sink a f complete true (s := u) (by rw [h.image]; exact hsink)
  rw [← h.notice] at w
  exact .followedBy (h.writes.widen (by decide)) w (by decide)

theorem notice_eq (hsink : s.image.sinkRole = true) : t = overtakeEntries (bankNotice a f complete (beforeBanks true u)) := by
  rw [h.notice, notice_of_sink a f complete true (by rw [h.image]; exact hsink)]

theorem before_openFrame : (beforeBanks true u).openFrame = f + 1 := by
  have hsettle : (beforeBanks true u).settle = u.settle := beforeBanks_writes true u .settle (by decide)
  rw [State.openFrame, hsettle, h.settle]

theorem before_banks : (beforeBanks true u).banks.swapPending = s.banks.swapPending ∧
    (beforeBanks true u).banks.shown = s.banks.shown ∧ (beforeBanks true u).banks.clear = s.banks.clear ∧
    (s.engine = .idle → (beforeBanks true u).banks = s.banks) := by
  have hbanks : u.banks = s.banks := h.writes .banks (by decide)
  have hengine : u.engine = s.engine := h.writes .engine (by decide)
  have hbefore := beforeBanks_banks true u
  rw [hbanks, hengine] at hbefore
  exact hbefore

theorem sink (hsink : s.image.sinkRole = true) : t.landing = [] ∧ t.engine = .idle ∧ t.coverage.openFor = some (f + 1) ∧
    t.requester = { s.requester with
      entries := [], published := List.replicate 16 false, unrepairable := List.replicate 16 false } := by
  have heq := h.notice_eq hsink
  have w : OnlyWrites [.banks, .freeSeq, .coverage, .port, .requester] (beforeBanks true u) t := by
    rw [heq]
    exact .followedBy ((bankNotice_writes _ _ _ _).widen (by decide)) (overtakeEntries_writes _) (by decide)
  obtain ⟨hlanding, hengine⟩ := beforeBanks_landing true u
  refine ⟨(w .landing (by decide)).trans hlanding, (w .engine (by decide)).trans hengine, ?_, ?_⟩
  · rw [heq, ← h.before_openFrame]
    exact bankNotice_openFor a f complete _
  · have hrequester : (bankNotice a f complete (beforeBanks true u)).requester = s.requester :=
      (bankNotice_writes _ _ _ _ .requester (by decide)).trans ((beforeBanks_writes true u .requester (by decide)).trans
        (h.writes .requester (by decide)))
    rw [heq, ← hrequester]
    rfl

theorem coverage (hsink : s.image.sinkRole = true) (hopen : s.coverage.openFor = some (s.settle.frame + 1))
    (hmoves : f ≠ s.settle.frame) : OpenedFor s.coverage t.coverage (f + 1) := by
  have hcoverage : (beforeBanks true u).coverage = s.coverage :=
    (beforeBanks_writes true u .coverage (by decide)).trans (h.writes .coverage (by decide))
  have hbank := bankNotice_coverage a f complete (beforeBanks true u)
  rw [hcoverage, h.before_openFrame] at hbank
  rw [h.notice_eq hsink]
  rcases hbank with hbank | ⟨hsame, -⟩
  · rw [show (overtakeEntries _).coverage = _ from hbank]
    exact open_openedFor _ _
  · rw [hopen, Option.some.injEq, add_left_inj] at hsame
    exact absurd hsame.symm hmoves

theorem front (hsink : s.image.sinkRole = true) : t.banks.front = s.banks.front ∧ t.banks.frontBank = s.banks.frontBank ∧
    t.banks.shown = s.banks.shown := by
  have hbanks : u.banks = s.banks := h.writes .banks (by decide)
  obtain ⟨hfront, hbank⟩ := notice_front a f complete true u
  rw [← h.notice, hbanks] at hfront hbank
  refine ⟨hfront, hbank, ?_⟩
  rw [h.notice_eq hsink]
  exact (bankNotice_shown h.settled).trans h.before_banks.2.1

theorem banks_of_pending (hsink : s.image.sinkRole = true) {g : Frame} (hg : s.banks.swapPending = some g) :
    t.banks.swapPending = some g ∧ t.banks.clear = s.banks.clear := by
  obtain ⟨hswap, -, hclear, -⟩ := h.before_banks
  rw [h.notice_eq hsink, show ∀ v, (overtakeEntries v).banks = v.banks from fun _ => rfl,
    bankNotice_banks_of_pending (hswap.trans hg)]
  exact ⟨hswap.trans hg, hclear⟩

theorem banks_of_reopen (hsink : s.image.sinkRole = true) (hnone : s.banks.swapPending = none)
    (ha : (a = .commit ∧ complete = false) ∨ a = .abandon ∨ a = .resync) :
    t.banks.swapPending = none ∧ t.banks.backFrame = some (f + 1) ∧ t.banks.clear = .clearingBack := by
  obtain ⟨hswap, hframe, hclear, -⟩ := bankNotice_banks_of_reopen (h.before_banks.1.trans hnone) ha (f := f)
  rw [h.before_openFrame] at hframe
  rw [h.notice_eq hsink]
  exact ⟨hswap, hframe, hclear⟩

theorem port (hsink : s.image.sinkRole = true) : t.port =
    if a = .commit ∧ (s.banks.swapPending ≠ none ∨ complete = false) then
      (straggle f (if s.banks.swapPending = none then 0 else 1) u).port else u.port := by
  have hport : (beforeBanks true u).port = u.port := beforeBanks_writes true u .port (by decide)
  have htimer : (beforeBanks true u).roundTimer = u.roundTimer := beforeBanks_writes true u .roundTimer (by decide)
  have hbank := bankNotice_port (a := a) (f := f) (complete := complete) (beforeBanks true u)
  rw [h.before_banks.1, hport] at hbank
  rw [h.notice_eq hsink, show ∀ v, (overtakeEntries v).port = v.port from fun _ => rfl, hbank]
  refine if_congr Iff.rfl ?_ rfl
  exact raise_port_congr _ _ (post_port_congr _ _ _ hport (congrArg RoundTimer.number htimer))

theorem port_of_not_sink (hsink : s.image.sinkRole = false) : t.port = u.port := by
  have w := notice_writes_of_not_sink a f complete true (s := u) (by rw [h.image]; exact hsink)
  rw [← h.notice] at w
  exact w .port (by decide)

/-- Only a COMMIT makes the notice report anything. -/
theorem port_of_not_commit (ha : a ≠ .commit) : t.port = u.port := by
  cases hsink : s.image.sinkRole with
  | false => exact h.port_of_not_sink hsink
  | true => rw [h.port hsink, if_neg fun hc => ha hc.1]

end SettlesBy

theorem post_events {k : EventKind} {f : Frame} {d : Byte} {s : State} (h : s.port.events.length < 32) :
    (post k f d s).port.events = s.port.events ++ [{ kind := k, round := s.roundTimer.number, frame := f, detail := d }] := by
  rcases post_record k f d s with ⟨-, -, hevents⟩ | ⟨hfull, -, -⟩
  · exact hevents
  · exact absurd h (Nat.not_lt.2 hfull)

/-- What a COMMIT reports beyond itself (R128, R130). -/
theorem settleCommit_port (s : State) : (settleCommit s).port =
    if s.image.sinkRole = true ∧ (s.banks.swapPending ≠ none ∨ completeFor s s.openFrame = false) then
      (straggle s.openFrame (if s.banks.swapPending = none then 0 else 1)
        (raise .commitsTaken 1 (advance s.openFrame .commit s))).port
    else (raise .commitsTaken 1 s).port := by
  have h := settleCommit_settles s
  cases hsink : s.image.sinkRole with
  | false => rw [h.port_of_not_sink hsink, if_neg fun hc => Bool.false_ne_true hc.1]; rfl
  | true =>
    rw [h.port hsink]
    simp only [true_and]
    rfl

theorem settleCommit_straggles {s : State} (h : s.port.counters.length = 22) : (settleCommit s).counter .straggles =
    if s.image.sinkRole = true ∧ (s.banks.swapPending ≠ none ∨ completeFor s s.openFrame = false)
    then min 65535 (s.counter .straggles + 1) else s.counter .straggles := by
  have hcommit : (raise .commitsTaken 1 (advance s.openFrame .commit s)).counter .straggles = s.counter .straggles :=
    counter_raise_of_ne (by decide) 1 _
  rw [State.counter, settleCommit_port]
  split
  · refine (counter_raise_self (c := .straggles) (n := 1) ?_).trans ?_
    · rw [post_counters, raise_counters_length]
      exact h
    · rw [State.counter, post_counters]
      exact congrArg (saturate 65535 · 1) hcommit
  · exact counter_raise_of_ne (by decide) 1 s

theorem settleCommit_events {s : State} (h : s.port.events.length < 32) : (settleCommit s).port.events =
    if s.image.sinkRole = true ∧ (s.banks.swapPending ≠ none ∨ completeFor s s.openFrame = false)
    then s.port.events ++ [⟨.straggle, s.roundTimer.number, s.openFrame, if s.banks.swapPending = none then 0 else 1⟩]
    else s.port.events := by
  rw [settleCommit_port]
  split
  · exact post_events (s := raise .commitsTaken 1 (advance s.openFrame .commit s)) h
  · rfl

/-- Settles O38: a settle is one notice, told of its frame, its action and the judgment of completeness. -/
theorem settleReachesEveryBlock : Obligations.SettleReachesEveryBlock := by
  intro s t f k isCommit hcases
  obtain ⟨u, a, complete, h, hcommit, hother⟩ : ∃ u a complete, SettlesBy s u t f k a complete ∧
      (isCommit = true → a = .commit ∧ complete = completeFor s f) ∧
      (isCommit = false ∨ completeFor s f = false → (a = .commit ∧ complete = false) ∨ a = .abandon ∨ a = .resync) := by
    rcases hcases with ⟨rfl, rfl, rfl, rfl⟩ | ⟨p, rfl, rfl, rfl, rfl⟩ | ⟨rfl, rfl⟩
    · exact ⟨_, _, _, settleCommit_settles s, fun _ => ⟨rfl, rfl⟩, fun hc => .inl ⟨rfl, hc.resolve_left (by decide)⟩⟩
    · exact ⟨_, _, _, settleAbandon_settles p s, fun hc => absurd hc (by decide), fun _ => .inr (.inl rfl)⟩
    · exact ⟨_, _, _, resync_settles f k s, fun hc => absurd hc (by decide), fun _ => .inr (.inr rfl)⟩
  refine ⟨h.settle_eq, h.members, fun hsource => ?_, h.writes_of_not_source, fun hsink => ?_, h.writes_of_not_sink, fun hcount =>
    ⟨fun ht => ?_, fun ht => ?_⟩, fun hevents => ⟨fun ht => ?_, fun p ht => ?_, fun g x ht => ?_⟩⟩
  · obtain ⟨hring, hqueue, hresponder, hcapture⟩ := h.source hsource
    rw [hcapture]
    exact ⟨hring, hqueue, hresponder, rfl, rfl, rfl, rfl, rfl⟩
  · obtain ⟨hlanding, hengine, hopen, hrequester⟩ := h.sink hsink
    obtain ⟨hfront, hbank, hshown⟩ := h.front hsink
    refine ⟨hlanding, hengine, hopen, h.coverage hsink, hrequester, hfront, hbank, hshown, fun g => h.banks_of_pending hsink,
      fun hnone hc hcomplete => ?_, fun hnone hc => h.banks_of_reopen hsink hnone (hother hc)⟩
    obtain ⟨rfl, rfl⟩ := hcommit hc
    obtain ⟨hswap, -, -, hbanks⟩ := h.before_banks
    have hidle : s.engine = .idle := (completeFor_iff.1 hcomplete).engine
    rw [h.notice_eq hsink, hcomplete, ← hbanks hidle]
    exact bankNotice_banks_of_complete (hswap.trans hnone)
  · have hf : f = s.openFrame := by
      have hsettle := h.settle_eq
      rw [ht, settleCommit_settle] at hsettle
      exact (congrArg Settle.frame hsettle).symm
    subst ht hf
    exact ⟨settleCommit_counter hcount, settleCommit_straggles hcount⟩
  · subst ht
    refine ((notice_reports _ _ _ _ _).counters .resyncs (by decide)).trans ?_
    refine ((post_reports (cs := []) _ _ _ _).counters .resyncs (by decide)).trans ?_
    exact counter_raise_self (s := advance f k s) hcount
  · subst ht
    exact settleCommit_events hevents
  · subst ht
    rw [(settleAbandon_settles p s).port_of_not_commit (by decide),
      post_events (s := raise .abandonsTaken 1 (advance s.openFrame .abandon s)) hevents]
    cases p <;> rfl
  · subst ht
    rw [(resync_settles g x s).port_of_not_commit (by decide), post_events (s := raise .resyncs 1 (advance g x s)) hevents]
    rfl

end Sys2Proof.Machine
end

section
/-! The membership table: ageing and joining alone, entry by entry, and entry to MEMBER. -/

namespace Sys2Proof.Machine

/-! ## One pass over the table (R50, R57) -/

theorem post_port {k : EventKind} {f : Frame} {d : Byte} {s : State} (h : s.port.events.length < 32) : (post k f d s).port =
    { s.port with
      events := s.port.events ++ [{ kind := k, round := s.roundTimer.number, frame := f, detail := d }] } :=
  congrArg State.port (if_pos h)

theorem getElem?_of_lt {l : List MemberEntry} {k : Nat} (h : k < l.length) :
    l[k]? = some (l.getD k MemberEntry.unheard) := by simp [h]

theorem setMember_self (s : State) (k : Nat) : s.setMember k (s.member k) = s := by
  rcases Nat.lt_or_ge k s.members.length with h | h
  · have hset : s.members.set k (s.member k) = s.members := by
      rw [State.member, List.getD_eq_getElem _ _ h, List.set_getElem_self]
    rw [State.setMember, hset]
    rfl
  · have hset : s.members.set k (s.member k) = s.members := List.set_eq_of_length_le h
    rw [State.setMember, hset]
    rfl

/-- A pass at entry `k`: it becomes `h` of what it was, and MEMBER ABSENT is posted when it was due. -/
def visitMember (due : MemberEntry → Bool) (h : MemberEntry → MemberEntry) (s : State) (k : Nat) : State :=
  if due (s.member k) then post .memberAbsent s.settle.frame (toByte k) (s.setMember k (h (s.member k)))
  else s.setMember k (h (s.member k))

/-- An entry after the station has joined alone (R50). -/
def MemberEntry.forgotten (e : MemberEntry) : MemberEntry :=
  if e.status = .present then { e with status := .absent, eligible := false } else e

theorem ageMember_eq (s : State) (k : Nat) : ageMember s k =
    visitMember (MemberEntry.agesOut s.image.absenceLimit) (MemberEntry.aged s.image.absenceLimit) s k := rfl

theorem forgetMember_eq (s : State) (k : Nat) : forgetMember s k =
    visitMember (fun e => e.status == .present) MemberEntry.forgotten s k := by
  unfold forgetMember visitMember MemberEntry.forgotten
  by_cases h : (s.member k).status = .present
  · simp only [h, beq_self_eq_true, if_true]
  · have hdue : ((s.member k).status == .present) = false := beq_false_of_ne h
    simp only [h, if_false, hdue, Bool.false_eq_true, setMember_self]

section
variable (due : MemberEntry → Bool) (h : MemberEntry → MemberEntry)

theorem visitMember_writes (s : State) (k : Nat) : OnlyWrites [.members, .port] s (visitMember due h s k) := by
  unfold visitMember
  split
  · exact .followedBy (gs := [.port]) ((setMember_writes _ _ _).widen (by decide)) (post_writes _ _ _ _) (by decide)
  · exact (setMember_writes _ _ _).widen (by decide)

theorem visitMember_members (s : State) (k : Nat) : (visitMember due h s k).members = s.members.set k (h (s.member k)) := by
  unfold visitMember
  split
  · exact post_writes _ _ _ _ .members (by decide)
  · rfl

/-- The events a pass over the stations `l` posts. -/
def absences (s : State) (l : List Nat) : List Event :=
  (l.filter (fun k => due (s.member k))).map (fun k => ⟨.memberAbsent, s.roundTimer.number, s.settle.frame, toByte k⟩)

/-- A pass over the first `n` stations leaves the others. -/
theorem visits (s : State) (n : Nat) (hn : n ≤ s.members.length) :
    (∀ i, ((List.range n).foldl (visitMember due h) s).members[i]? = if i < n then s.members[i]?.map h else s.members[i]?) ∧
    OnlyWrites [.members, .port] s ((List.range n).foldl (visitMember due h) s) ∧
    (s.port.events.length + (absences due s (List.range n)).length ≤ 32 →
      ((List.range n).foldl (visitMember due h) s).port =
        { s.port with events := s.port.events ++ absences due s (List.range n) }) := by
  induction n with
  | zero => exact ⟨fun i => rfl, .refl, fun _ => by simp [absences]⟩
  | succ n ih =>
    obtain ⟨hmembers, hwrites, hport⟩ := ih (by omega)
    rw [List.range_succ, List.foldl_concat]
    generalize (List.range n).foldl (visitMember due h) s = u at hmembers hwrites hport
    have hmember : u.member n = s.member n := by
      rw [State.member, List.getD_eq_getElem?_getD, hmembers, if_neg (Nat.lt_irrefl n), ← List.getD_eq_getElem?_getD]
      rfl
    refine ⟨fun i => ?_, hwrites.followedBy (visitMember_writes due h u n) (by decide), fun hroom => ?_⟩
    · rw [visitMember_members, List.getElem?_set, hmember]
      have hlength : u.members.length = s.members.length := by
        refine Nat.le_antisymm ?_ ?_
        · rw [← List.getElem?_eq_none_iff, hmembers, if_neg (by omega)]
          exact List.getElem?_eq_none (Nat.le_refl _)
        · by_contra hlt
          have hnone := hmembers (s.members.length - 1)
          rw [List.getElem?_eq_none (by omega)] at hnone
          have hsome := getElem?_of_lt (l := s.members) (k := s.members.length - 1) (by omega)
          rw [hsome] at hnone
          split at hnone <;> simp at hnone
      rcases Nat.lt_trichotomy i n with hi | rfl | hi
      · rw [if_neg (by omega), hmembers, if_pos hi, if_pos (by omega)]
      · rw [if_pos rfl, if_pos (by omega), if_pos (Nat.lt_succ_self i), getElem?_of_lt (by omega)]
        rfl
      · rw [if_neg (by omega), hmembers, if_neg (by omega), if_neg (by omega)]
    · have habsences : absences due s (List.range n ++ [n]) = absences due s (List.range n) ++
          (if due (s.member n) then [⟨.memberAbsent, s.roundTimer.number, s.settle.frame, toByte n⟩] else []) := by
        unfold absences
        rw [List.filter_append, List.map_append]
        cases hd : due (s.member n) <;> simp [hd]
      rw [habsences, List.length_append] at hroom
      have hport := hport (by omega)
      have hsettle : u.settle = s.settle := hwrites .settle (by decide)
      have htimer : u.roundTimer = s.roundTimer := hwrites .roundTimer (by decide)
      rw [habsences, visitMember, hmember]
      cases hd : due (s.member n) with
      | false =>
        rw [if_neg Bool.false_ne_true, if_neg Bool.false_ne_true, List.append_nil]
        exact hport
      | true =>
        rw [hd, if_pos rfl] at hroom
        rw [if_pos rfl, if_pos rfl]
        have hfit : (u.setMember n (h (s.member n))).port.events.length < 32 := by
          show u.port.events.length < 32
          rw [hport]
          show (s.port.events ++ _).length < 32
          rw [List.length_append]
          exact Nat.lt_of_succ_le hroom
        have hset : (u.setMember n (h (s.member n))).port = u.port ∧ (u.setMember n (h (s.member n))).roundTimer = s.roundTimer :=
          ⟨rfl, htimer⟩
        rw [post_port hfit, hsettle, hset.1, hset.2, hport, List.append_assoc]

/-- A pass over the whole table. -/
theorem visits_all {s : State} (hs : s.members.length = 32) :
    (stationNumbers.foldl (visitMember due h) s).members = s.members.map h := by
  obtain ⟨hmembers, -, -⟩ := visits due h s 32 (by omega)
  refine List.ext_getElem? fun i => ?_
  rw [stationNumbers, hmembers, List.getElem?_map]
  split
  · rfl
  · rw [List.getElem?_eq_none (by omega)]
    rfl

end

theorem foldl_ageMember (l : List Nat) (limit : Nat) : ∀ s : State, s.image.absenceLimit = limit →
    l.foldl ageMember s = l.foldl (visitMember (MemberEntry.agesOut limit) (MemberEntry.aged limit)) s := by
  induction l with
  | nil => exact fun _ _ => rfl
  | cons k l ih =>
    rintro s rfl
    refine (ih (ageMember s k) ?_).trans rfl
    rw [ageMember_eq, image_of_writes (visitMember_writes _ _ s k) (by decide)]

theorem tableRoundStart_eq (s : State) : tableRoundStart s = stationNumbers.foldl
    (visitMember (MemberEntry.agesOut s.image.absenceLimit) (MemberEntry.aged s.image.absenceLimit)) s := foldl_ageMember _ _ s rfl

theorem forgetMembers_eq (s : State) : forgetMembers s =
    stationNumbers.foldl (visitMember (fun e => e.status == .present) MemberEntry.forgotten) s :=
  congrArg (fun g => stationNumbers.foldl g s) (funext₂ forgetMember_eq)

theorem tableRoundStart_members {s : State} (h : s.members.length = 32) :
    (tableRoundStart s).members = s.members.map (MemberEntry.aged s.image.absenceLimit) := by
  rw [tableRoundStart_eq, visits_all _ _ h]

theorem forgetMembers_members {s : State} (h : s.members.length = 32) :
    (forgetMembers s).members = s.members.map MemberEntry.forgotten := by rw [forgetMembers_eq, visits_all _ _ h]

/-! ## Entry to MEMBER (R51) -/

section
variable (f : Frame) (k : SettleKind) (detail : Byte) (s : State)

/-- What the notice of joining finds. -/
def entering : State :=
  post .joined f detail ((s.setStation { s.station with state := .member }).setSettle
    { frame := f, kind := k, openAge := 0, lastMark := none })

theorem enterMember_eq : enterMember f k detail s = notice .join f false false (entering f k detail s) := rfl

theorem entering_writes : OnlyWrites [.station, .settle, .port] s (entering f k detail s) := by
  refine .followedBy (gs := [.port]) ?_ (post_writes _ _ _ _) (by decide)
  exact .followedBy (gs := [.settle]) ((setStation_writes _ _).widen (by decide)) (setSettle_writes _ _) (by decide)

theorem enterMember_station : (enterMember f k detail s).station = { s.station with state := .member } :=
  (notice_writes .join f false false (entering f k detail s) .station (by decide)).trans (post_writes _ _ _ _ .station (by decide))

theorem enterMember_settle : (enterMember f k detail s).settle = { frame := f, kind := k, openAge := 0, lastMark := none } :=
  (notice_settle _ _ _ _ _).trans (post_settle _ _ _ _)

theorem entering_openFrame : (entering f k detail s).openFrame = f + 1 := by
  rw [State.openFrame, show (entering f k detail s).settle = _ from post_settle _ _ _ _]
  rfl

theorem enterMember_members : (enterMember f k detail s).members =
    s.members.map (fun e => { e with eligible := eligibleAfter s.image false e }) := by
  have w := entering_writes f k detail s
  rw [enterMember_eq, notice_members, image_of_writes w (by decide),
    show (entering f k detail s).members = s.members from w .members (by decide)]

theorem enterMember_capture (h : s.image.sourceRole = true) :
    (enterMember f k detail s).capture = lockedCapture (f + 1) s.capture := by
  have w := entering_writes f k detail s
  obtain ⟨hcapture, -, -, -⟩ := notice_source .join f false false (s := entering f k detail s)
    (by rw [image_of_writes w (by decide)]; exact h)
  rw [enterMember_eq, hcapture, entering_openFrame,
    show (entering f k detail s).capture = s.capture from w .capture (by decide)]

/-- At joining a sink opens its back bank and its table, without a clear (R122). -/
theorem enterMember_sink (h : s.image.sinkRole = true) (hswap : s.banks.swapPending = none) :
    (enterMember f k detail s).banks.backFrame = some (f + 1) ∧
      (enterMember f k detail s).banks.clear = s.banks.clear ∧
      (enterMember f k detail s).coverage = s.coverage.open (f + 1) ∧ (enterMember f k detail s).requester.entries = [] := by
  have w := entering_writes f k detail s
  have wb := beforeBanks_writes false (entering f k detail s)
  have hbanks : (entering f k detail s).banks = s.banks := w .banks (by decide)
  have hcoverage : (beforeBanks false (entering f k detail s)).coverage = s.coverage :=
    (wb .coverage (by decide)).trans (w .coverage (by decide))
  have hsettle : (beforeBanks false (entering f k detail s)).settle = (entering f k detail s).settle := wb .settle (by decide)
  have hframe : (beforeBanks false (entering f k detail s)).openFrame = f + 1 := by
    rw [State.openFrame, hsettle]
    exact entering_openFrame f k detail s
  obtain ⟨hpending, -, hclear, -⟩ := beforeBanks_banks false (entering f k detail s)
  rw [hbanks] at hpending hclear
  obtain ⟨hjoin, hopen⟩ := bankNotice_banks_of_join (f := f) (complete := false) (hpending.trans hswap)
  rw [hframe] at hjoin hopen
  rw [enterMember_eq, notice_of_sink .join f false false (by rw [image_of_writes w (by decide)]; exact h)]
  refine ⟨?_, ?_, ?_, rfl⟩
  · exact congrArg BankControl.backFrame hjoin
  · exact (congrArg BankControl.clear hjoin).trans hclear
  · rw [← hcoverage]
    exact hopen

theorem enterMember_port : (enterMember f k detail s).port = (post .joined f detail s).port := by
  have w := entering_writes f k detail s
  have hport : (entering f k detail s).port = (post .joined f detail s).port := post_port_congr _ _ _ rfl rfl
  rw [enterMember_eq, ← hport]
  cases h : s.image.sinkRole with
  | false =>
    exact notice_writes_of_not_sink .join f false false (by rw [image_of_writes w (by decide)]; exact h) .port (by decide)
  | true =>
    rw [notice_of_sink .join f false false (by rw [image_of_writes w (by decide)]; exact h)]
    refine (bankNotice_port _).trans ((if_neg fun hc => nomatch hc.1).trans ?_)
    exact beforeBanks_writes false _ .port (by decide)

end

end Sys2Proof.Machine
end

section
/-! Joining alone, joining by count, and members that fall silent. -/

namespace Sys2Proof.Machine

/-! ## Joining alone (R50) -/

section
variable {s : State}

/-- What a station forgets when it joins alone, before it enters MEMBER. -/
def aloneBefore (s : State) : State :=
  forgetMembers ((s.setRoundTimer { s.roundTimer with number := 0 }).setBus
    { s.bus with aligned := true, position := .tail, positionHeld := false, hearing := none })

theorem joinAlone_eq (s : State) : joinAlone s = enterMember 0 .start 1 (aloneBefore s) := rfl

/-- The expiry that is the fourth. -/
theorem expireListening_fourth (h : 3 ≤ s.station.silentExpiries) : expireListening s =
    joinAlone ((restartMarkTimer s).setStation { s.station with silentExpiries := saturate 4 s.station.silentExpiries 1 }) := by
  refine if_pos ?_
  show 4 ≤ min 4 (s.station.silentExpiries + 1)
  omega

theorem execJoinAlone_due (hl : s.station.state = .listen) (ht : s.roundTimer.markTimer ≠ none)
    (h : 3 ≤ s.station.silentExpiries) : exec .joinAlone s = .next (expireListening s) := by
  refine congrArg Host.Outcome.next (if_pos ?_)
  rw [isListen_iff.2 hl, Option.isSome_iff_ne_none.2 ht,
    decide_eq_true (show Config.silentExpiryLimit ≤ s.station.silentExpiries + 1 from Nat.succ_le_succ h)]
  rfl

theorem execJoinAlone_not_due (h : s.station.state ≠ .listen ∨ s.roundTimer.markTimer = none ∨ s.station.silentExpiries < 3) :
    exec .joinAlone s = .next s := by
  refine congrArg Host.Outcome.next (if_neg fun hdue => ?_)
  rw [Bool.and_eq_true, Bool.and_eq_true, isListen_iff, Option.isSome_iff_ne_none, decide_eq_true_iff] at hdue
  obtain ⟨⟨hl, ht⟩, hn⟩ := hdue
  rcases h with h | h | h
  · exact h hl
  · exact ht h
  · exact absurd hn (Nat.not_le.2 (Nat.succ_lt_succ h))

theorem forgotten_entering (img : Image) (e : MemberEntry) :
    { e.forgotten with eligible := eligibleAfter img false e.forgotten } =
      { e with status := if e.status = .present then .absent else e.status, eligible := false } := by
  obtain ⟨status, source, sink, rounds, eligible, record⟩ := e
  cases status <;> simp [MemberEntry.forgotten, eligibleAfter]

end

/-- Settles O43. -/
theorem joinAloneMakesMember : Obligations.JoinAloneMakesMember := by
  intro s
  refine ⟨fun hl ht hn hmembers hswap => ?_, fun h => execJoinAlone_not_due h⟩
  rw [execJoinAlone_due hl ht hn, expireListening_fourth hn, joinAlone_eq]
  generalize hr : (restartMarkTimer s).setStation { s.station with silentExpiries := saturate 4 s.station.silentExpiries 1 } = r
  have hquiet : OnlyWrites [.roundTimer, .station] s r := by
    rw [← hr]
    exact .followedBy ((restartMarkTimer_writes s).widen (by decide)) (setStation_writes _ _) (by decide)
  have hbefore : OnlyWrites [.roundTimer, .bus, .members, .port] r (aloneBefore r) := by
    refine .followedBy (gs := [.members, .port]) ?_ (forgetMembers_writes _) (by decide)
    exact .followedBy ((setRoundTimer_writes _ _).widen (by decide)) (setBus_writes _ _) (by decide)
  have w : OnlyWrites [.roundTimer, .station, .bus, .members, .port] s (aloneBefore r) :=
    .followedBy (hquiet.widen (by decide)) hbefore (by decide)
  have wenter := enterMember_writes 0 .start 1 (aloneBefore r)
  have himage : (aloneBefore r).image = s.image := image_of_writes w (by decide)
  have hcapture : (aloneBefore r).capture = s.capture := w .capture (by decide)
  have hbanks : (aloneBefore r).banks = s.banks := w .banks (by decide)
  have hcoverage : (aloneBefore r).coverage = s.coverage := w .coverage (by decide)
  have hrmembers : r.members = s.members := hquiet .members (by decide)
  have htimer : (aloneBefore r).roundTimer =
      { number := 0, markTimer := some (s.image.roundPeriod * 10 + s.image.stationNumber * 5) } := by
    refine (forgetMembers_writes _ .roundTimer (by decide)).trans ?_
    rw [← hr]
    rfl
  have hstation : (aloneBefore r).station = r.station := hbefore .station (by decide)
  have hbus : (aloneBefore r).bus = { s.bus with aligned := true, position := .tail, positionHeld := false, hearing := none } := by
    refine (forgetMembers_writes _ .bus (by decide)).trans ?_
    rw [← hr]
    rfl
  have hforgotten : (aloneBefore r).members = s.members.map MemberEntry.forgotten := by
    rw [← hrmembers]
    refine forgetMembers_members ?_
    show r.members.length = 32
    rw [hrmembers]
    exact hmembers
  refine ⟨_, rfl, ?_, ?_, enterMember_settle _ _ _ _, (wenter .roundTimer (by decide)).trans htimer,
    (wenter .bus (by decide)).trans hbus, ?_, (wenter .loader (by decide)).trans (w .loader (by decide)),
    (wenter .scan (by decide)).trans (w .scan (by decide)), fun hsource => ?_, fun hsink => ?_, fun absent habsent hroom => ?_⟩
  · rw [enterMember_station]
  · rw [enterMember_station, hstation, ← hr]
    rfl
  · rw [enterMember_members, hforgotten, List.map_map]
    exact List.map_congr_left fun e _ => forgotten_entering _ e
  · rw [enterMember_capture 0 .start 1 (aloneBefore r) (by rw [himage]; exact hsource), hcapture]
    exact ⟨rfl, rfl⟩
  · obtain ⟨hframe, hclear, hopen, hentries⟩ :=
      enterMember_sink 0 .start 1 (aloneBefore r) (by rw [himage]; exact hsink) (by rw [hbanks]; exact hswap)
    rw [hcoverage] at hopen
    rw [hbanks] at hclear
    rw [hopen]
    exact ⟨hframe, hclear, rfl, open_openedFor _ _, hentries⟩
  · have habsences : absences (fun e => e.status == .present) ((r.setRoundTimer { r.roundTimer with number := 0 }).setBus
        { r.bus with aligned := true, position := .tail, positionHeld := false, hearing := none }) (List.range 32) =
        absent.map (fun k => ⟨.memberAbsent, 0, s.settle.frame, toByte k⟩) := by
      rw [habsent, ← hr]
      rfl
    have hrport : r.port = s.port := hquiet .port (by decide)
    obtain ⟨-, -, hport⟩ := visits (fun e => e.status == .present) MemberEntry.forgotten
      ((r.setRoundTimer { r.roundTimer with number := 0 }).setBus
        { r.bus with aligned := true, position := .tail, positionHeld := false, hearing := none }) 32
      (by show 32 ≤ r.members.length; rw [hrmembers, hmembers])
    have hforget : (aloneBefore r).port = { s.port with
        events := s.port.events ++ absent.map (fun k => ⟨.memberAbsent, 0, s.settle.frame, toByte k⟩) } := by
      rw [habsences] at hport
      rw [← hrport]
      refine (congrArg State.port (forgetMembers_eq _)).trans (hport ?_)
      show r.port.events.length + _ ≤ 32
      rw [List.length_map, hrport]
      omega
    rw [enterMember_port, post_port, hforget, htimer]
    rw [hforget]
    show (s.port.events ++ _).length < 32
    rw [List.length_append, List.length_map]
    exact hroom

/-! ## Joining by count (R49) -/

section
variable {s : State}

theorem roundStart_of_listen (h : s.station.state = .listen) (c : RoundContent) (o : Orders) :
    roundStart c o s = countJoin (roundArrivals c o s) := by
  have hstation : (roundArrivals c o s).station = s.station := roundArrivals_writes c o s .station (by decide)
  rw [roundStart_eq, if_pos]
  rw [isListen_iff, hstation]
  exact h

theorem quiet_of_listen (h : s.station.state = .listen) (c : RoundContent) : c.Quiet s := by
  have hm := not_member_of_listen h
  cases c with
  | nothing => trivial
  | received k m => exact .inl hm
  | own m verdict => exact .inl hm

/-- Below the limit a round start in LISTEN raises the join count (R48). -/
theorem countJoin_below (h : s.station.joinCount < s.image.absenceLimit) :
    countJoin s = s.setStation { s.station with joinCount := s.station.joinCount + 1 } := by
  refine if_neg ?_
  show ¬ s.image.absenceLimit + 1 ≤ s.station.joinCount + 1
  omega

theorem countJoin_due (h : s.image.absenceLimit ≤ s.station.joinCount) :
    countJoin s = joinByCount (s.setStation { s.station with joinCount := s.station.joinCount + 1 }) := by
  refine if_pos ?_
  show s.image.absenceLimit + 1 ≤ s.station.joinCount + 1
  omega

/-- The last MARK value after a round start in LISTEN. -/
def RoundContent.mark (c : RoundContent) (last : Option (Frame × SettleKind)) : Option (Frame × SettleKind) :=
  match c with
  | .nothing => last
  | .received _ m => some (m.settled, m.kind)
  | .own _ _ => last

theorem roundArrivals_settle_of_listen (h : s.station.state = .listen) (c : RoundContent) (o : Orders) :
    (roundArrivals c o s).settle = { s.settle with lastMark := c.mark s.settle.lastMark } := by
  refine roundArrivals_settle (fun u w hu => ?_) o
  have hstation : u.station = s.station := w .station (by decide)
  have hm : u.isMember = false := not_member_of_listen (by rw [hstation]; exact h)
  rw [settleRoundStart, hm, if_neg Bool.false_ne_true, ← hu]
  cases c <;> rfl

theorem arrive_members {c : RoundContent} {a : RoundArrival} (h : a ≠ .ageing) (hs : a ≠ .settle) (s : State) :
    (arrive c s a).members = s.members := by
  cases a with
  | number => rfl
  | ageing => exact absurd rfl h
  | silence => exact captureRoundStart_writes s .members (by decide)
  | waits =>
    unfold arrive
    dsimp only
    split
    · exact requesterRoundStart_writes s .members (by decide)
    · rfl
  | settle => exact absurd rfl hs

/-- In LISTEN the table is aged, whatever the order (R48, R57). -/
theorem roundArrivals_members_of_listen (h : s.station.state = .listen) (hs : s.members.length = 32) (c : RoundContent)
    (o : Orders) : (roundArrivals c o s).members = s.members.map (MemberEntry.aged s.image.absenceLimit) := by
  refine roundArrivals_once (F := State.members) (a₀ := .ageing) (x := s.members) c o (fun u a w ha => ?_) (fun u w hu => ?_) rfl
  · by_cases hsettle : a = .settle
    · subst hsettle
      have hstation : u.station = s.station := w .station (by decide)
      have hm : u.isMember = false := not_member_of_listen (by rw [hstation]; exact h)
      show (settleRoundStart c u).members = u.members
      rw [settleRoundStart, hm, if_neg Bool.false_ne_true]
      exact recordMark_writes c u .members (by decide)
    · exact arrive_members ha hsettle u
  · rw [show arrive c u .ageing = tableRoundStart u from rfl, tableRoundStart_members (by rw [hu]; exact hs), hu,
      image_of_writes w (by decide)]

theorem laterFrame_eq (b : Frame × SettleKind) (e : MemberEntry) : laterFrame b e =
    match e.record with
    | none => b
    | some r => if e.status = .present ∧ 1 ≤ forward b.1 r.settled ∧ forward b.1 r.settled ≤ 32767 then (r.settled, r.kind)
        else b := by
  obtain ⟨status, source, sink, rounds, eligible, record⟩ := e
  cases record with
  | none => cases status <;> rfl
  | some r => cases status <;> simp [laterFrame, isAhead]

theorem aged_entering (img : Image) (e : MemberEntry) : eligibleAfter img false e = (e.status == .present && e.sink) := by
  unfold eligibleAfter
  cases e.status <;> simp

end

theorem roundStartComes_of_hears {s : State} {heard : List Byte} {opens : Bool} {j : Judgment} (h : Hears s heard opens j) :
    roundStartComes s heard = opens := by
  obtain ⟨hon, ⟨x, hhearing, hopens, -⟩, hsilent⟩ := h
  have hstays : (settleReadback none s).isIsolated = false := afterBurst_not_isolated hon
  rw [roundStartComes, hhearing]
  show (if s.onTheBus then _ else _) = _
  rw [if_pos hon, ownReadback, hsilent, hopens]
  show (opens && !(settleReadback none s).isIsolated) = opens
  rw [hstays]
  cases opens <;> rfl

theorem roundStartComes_of_quiet {s : State} (h : s.bus.hearing = none) (heard : List Byte) :
    roundStartComes s heard = false := by
  rw [roundStartComes, h]

/-- The round start a burst heard makes. -/
theorem burstTaken_round {s : State} {heard : List Byte} {j : Judgment} (h : Hears s heard true j) (o : Orders) :
    exec (.burstTaken heard o) s = .next (roundStart (roundContent none j) o (countJudgment j (afterBurst s))) := by
  obtain ⟨repeated, hexec⟩ := burstTaken_heard h o
  rw [hexec, concludeBurst_none]
  rfl

theorem countJudgment_same (j : Judgment) (s : State) : OnlyWrites [.bus, .port] s (countJudgment j (afterBurst s)) :=
  .followedBy ((setBus_writes _ _).widen (by decide)) (countJudgment_writes j (afterBurst s)) (by decide)

theorem candidateMark_eq_some {s : State} {heard : List Byte} {k : Nat} {m : MarkFields}
    (h : judge s.image .mark false heard = .valid ⟨k, .mark m⟩) : candidateMark s heard = some (k, m) := by
  rw [candidateMark, h]

theorem candidateMark_eq_none {s : State} {heard : List Byte}
    (h : ∀ k m, judge s.image .mark false heard ≠ .valid ⟨k, .mark m⟩) : candidateMark s heard = none := by
  unfold candidateMark
  split
  next k m hj => exact absurd hj (h k m)
  next => rfl

theorem takeBurst_of_unaligned {s : State} {x : Hearing} (hl : s.station.state = .listen) (ha : s.bus.aligned = false)
    (h : s.bus.hearing = some x) (heard : List Byte) (o : Orders) : takeBurst heard o s = endCandidate heard o s := by
  have hon : s.onTheBus = false := by
    rw [State.onTheBus, ha, Bool.and_false, Bool.or_false]
    exact not_member_of_listen hl
  rw [takeBurst, h]
  show (if s.onTheBus then _ else _) = _
  rw [hon, if_neg Bool.false_ne_true, if_pos (isListen_iff.2 hl)]

/-- The round start in LISTEN of a valid MARK, or of a discarded burst, before the join is counted (R48). -/
theorem listening_round {s : State} {heard : List Byte} {j : Judgment} {v : Frame × SettleKind} {n : RoundNo}
    (hl : s.station.state = .listen) (h : Hears s heard true j) (hmembers : s.members.length = 32)
    (hcontent : (∃ k m, j = .valid ⟨k, .mark m⟩ ∧ v = (m.settled, m.kind) ∧ n = m.round) ∨
      (j.discarded = true ∧ s.settle.lastMark = some v ∧ n = s.roundTimer.number + 1)) (o : Orders) :
    ∃ r, exec (.burstTaken heard o) s = .next (countJoin r) ∧ OnlyWrites (.bus :: quietFields) s r ∧
      r.bus = (afterBurst s).bus ∧ r.settle = { s.settle with lastMark := some v } ∧
      r.roundTimer = { number := n, markTimer := some (s.image.roundPeriod * 10 + s.image.stationNumber * 5) } ∧
      r.members = s.members.map (MemberEntry.aged s.image.absenceLimit) := by
  have hcontent' : (roundContent none j).mark s.settle.lastMark = some v ∧
      (roundContent none j).roundNumber s.roundTimer.number = n := by
    rcases hcontent with ⟨k, m, rfl, rfl, rfl⟩ | ⟨hj, hlast, rfl⟩
    · exact ⟨rfl, rfl⟩
    · rw [roundContent_of_discarded hj]
      exact ⟨hlast, rfl⟩
  have hexec := burstTaken_round h o
  have wu := countJudgment_same j s
  have hbus : (countJudgment j (afterBurst s)).bus = (afterBurst s).bus := countJudgment_bus j _
  generalize countJudgment j (afterBurst s) = u at hexec wu hbus
  have hul : u.station.state = .listen := by
    rw [show u.station = s.station from wu .station (by decide)]
    exact hl
  have husettle : u.settle = s.settle := wu .settle (by decide)
  have hutimer : u.roundTimer = s.roundTimer := wu .roundTimer (by decide)
  have humembers : u.members = s.members := wu .members (by decide)
  have huimage : u.image = s.image := image_of_writes wu (by decide)
  rw [roundStart_of_listen hul] at hexec
  obtain ⟨w, -⟩ := roundArrivals_of_quiet (quiet_of_listen hul (roundContent none j)) o
  refine ⟨_, hexec, .followedBy (wu.widen (by decide)) w (by decide), (w .bus (by decide)).trans hbus, ?_, ?_, ?_⟩
  · rw [roundArrivals_settle_of_listen hul, husettle, hcontent'.1]
  · rw [roundArrivals_roundTimer, hutimer, hcontent'.2, huimage]
  · rw [roundArrivals_members_of_listen hul (by rw [humembers]; exact hmembers), humembers, huimage]

theorem execJoinByCount_eq (s : State) (heard : List Byte) (o : Orders) : exec (.joinByCount heard o) s =
    .next (if roundStartComes s heard && joinDue s then takeBurst heard o s else s) := rfl

theorem joinDue_iff {s : State} (hl : s.station.state = .listen) : joinDue s = true ↔ s.image.absenceLimit ≤ s.station.joinCount := by
  rw [joinDue, isListen_iff.2 hl, Bool.true_and, decide_eq_true_iff]

/-- Settles O44. -/
theorem joinByCountMakesMember : Obligations.JoinByCountMakesMember := by
  refine ⟨fun s heard o x hl ha hhearing => ⟨fun k m hj hcount => ?_, fun hj => ?_⟩, fun s heard o j v n hl h hmembers hcontent =>
    ⟨fun hcount => ⟨?_, ?_⟩, fun hcount hswap => ?_⟩⟩
  · have hcandidate : candidateMark (s.setBus { s.bus with hearing := none }) heard = some (k, m) := candidateMark_eq_some hj
    have htaken : takeBurst heard o s = roundStart (.received k m) o (s.setBus
        { s.bus with aligned := true, position := .mark, positionHeld := true, hearing := none }) := by
      rw [takeBurst_of_unaligned hl ha hhearing, endCandidate, hcandidate]
      rfl
    generalize hu : s.setBus { s.bus with aligned := true, position := .mark, positionHeld := true, hearing := none } = u at htaken
    have hul : u.station.state = .listen := by rw [← hu]; exact hl
    have w := roundArrivals_writes (.received k m) o u
    have hbelow : (roundArrivals (.received k m) o u).station.joinCount < (roundArrivals (.received k m) o u).image.absenceLimit := by
      rw [show (roundArrivals (.received k m) o u).station = u.station from w .station (by decide), image_of_writes w (by decide),
        ← hu]
      exact hcount
    rw [roundStart_of_listen hul, countJoin_below hbelow] at htaken
    refine ⟨_, congrArg Host.Outcome.next htaken, ?_, ?_, ?_, ?_⟩
    · rw [State.setStation_station, show (roundArrivals (.received k m) o u).station = u.station from w .station (by decide), ← hu]
      rfl
    · refine (w .bus (by decide)).trans ?_
      rw [← hu]
      rfl
    · refine (roundArrivals_roundTimer _ o u).trans ?_
      rw [← hu]
      rfl
    · refine (roundArrivals_settle_of_listen hul _ o).trans ?_
      rw [← hu]
      rfl
  · refine congrArg Host.Outcome.next ?_
    have hcandidate : candidateMark (s.setBus { s.bus with hearing := none }) heard = none := candidateMark_eq_none hj
    rw [takeBurst_of_unaligned hl ha hhearing, endCandidate, hcandidate]
  · rw [execJoinByCount_eq, if_neg]
    rw [Bool.and_eq_true, joinDue_iff hl]
    exact fun hdue => absurd hdue.2 (Nat.not_le.2 hcount)
  · obtain ⟨r, hexec, w, hbus, hsettle, -, -⟩ := listening_round hl h hmembers hcontent o
    have hstation : r.station = s.station := w .station (by decide)
    rw [countJoin_below (by rw [hstation, image_of_writes w (by decide)]; exact hcount), hstation] at hexec
    exact ⟨_, hexec, rfl, hsettle, hbus, .followedBy (w.widen (by decide)) (setStation_writes _ _) (by decide)⟩
  · obtain ⟨r, hexec, w, hbus, hsettle, htimer, haged⟩ := listening_round hl h hmembers hcontent o
    have hstation : r.station = s.station := w .station (by decide)
    have himage : r.image = s.image := image_of_writes w (by decide)
    have hbanks : r.banks = s.banks := w .banks (by decide)
    have hcoverage : r.coverage = s.coverage := w .coverage (by decide)
    have hcommand : exec (.joinByCount heard o) s = exec (.burstTaken heard o) s := by
      refine congrArg Host.Outcome.next (if_pos ?_)
      rw [roundStartComes_of_hears h, (joinDue_iff hl).2 hcount]
      rfl
    rw [countJoin_due (by rw [hstation, himage]; exact hcount), joinByCount, hstation] at hexec
    generalize hr' : r.setStation { s.station with joinCount := s.station.joinCount + 1 } = r' at hexec
    generalize hv : joiningFrame r' = best' at hexec
    have wr : OnlyWrites [.station] r r' := by
      rw [← hr']
      exact setStation_writes _ _
    have wenter := enterMember_writes best'.1 best'.2 0 r'
    have himage' : r'.image = s.image := (image_of_writes wr (by decide)).trans himage
    refine ⟨_, hcommand.trans hexec, hexec, ?_, ?_, ?_, fun aged haged' best hbest => ?_⟩
    · rw [enterMember_station, ← hr']
      rfl
    · exact (wenter .bus (by decide)).trans ((wr .bus (by decide)).trans hbus)
    · exact (wenter .roundTimer (by decide)).trans ((wr .roundTimer (by decide)).trans htimer)
    · have hmembers' : r'.members = aged := by
        rw [show r'.members = r.members from wr .members (by decide), haged, haged']
      have hbest' : best' = best := by
        rw [← hv, hbest, joiningFrame, hmembers', show r'.settle = r.settle from wr .settle (by decide), hsettle]
        exact congrArg (fun g => aged.foldl g v) (funext₂ laterFrame_eq)
      subst hbest'
      refine ⟨enterMember_settle _ _ _ _, ?_, fun hsource => ?_, fun hsink => ?_, fun hroom => ?_⟩
      · rw [enterMember_members, hmembers']
        exact List.map_congr_left fun e _ => congrArg (fun b => { e with eligible := b }) (aged_entering _ e)
      · rw [enterMember_capture _ _ _ r' (by rw [himage']; exact hsource)]
        rfl
      · have hbanks' : r'.banks = s.banks := (wr .banks (by decide)).trans hbanks
        have hcoverage' : r'.coverage = s.coverage := (wr .coverage (by decide)).trans hcoverage
        obtain ⟨hframe, hclear, hopen, -⟩ :=
          enterMember_sink best'.1 best'.2 0 r' (by rw [himage']; exact hsink) (by rw [hbanks']; exact hswap)
        rw [hbanks'] at hclear
        rw [hcoverage'] at hopen
        rw [hopen]
        exact ⟨hframe, hclear, rfl, open_openedFor _ _⟩
      · have htimer' : r'.roundTimer.number = n := by
          rw [show r'.roundTimer = r.roundTimer from wr .roundTimer (by decide), htimer]
        rw [enterMember_port] at hroom ⊢
        rcases post_record .joined best'.1 0 r' with ⟨-, -, hevents⟩ | ⟨hfull, hevents, -⟩
        · rw [hevents, List.getLast?_concat, htimer']
        · rw [hevents] at hroom
          exact absurd hroom (Nat.not_lt.2 hfull)

/-! ## Members that fall silent (R57) -/

/-- An entry with its eligible flag left out. -/
def MemberEntry.plain (e : MemberEntry) : MemberEntry := { e with eligible := false }

theorem plain_aged {limit : Nat} {e e' : MemberEntry} (h : e.plain = e'.plain) :
    (e.aged limit).plain = (e'.aged limit).plain ∧ e.agesOut limit = e'.agesOut limit := by
  obtain ⟨status, source, sink, rounds, eligible, record⟩ := e
  obtain ⟨status', source', sink', rounds', eligible', record'⟩ := e'
  simp only [MemberEntry.plain, MemberEntry.mk.injEq] at h
  obtain ⟨rfl, rfl, rfl, rfl, -, rfl⟩ := h
  refine ⟨?_, rfl⟩
  unfold MemberEntry.aged MemberEntry.plain
  dsimp only
  split
  · split
    · rfl
    · rfl
  · rfl

theorem aged_of_agesOut {limit : Nat} {e : MemberEntry} (h : e.agesOut limit = true) :
    e.aged limit = { e with status := .absent, rounds := saturate 15 e.rounds 1, eligible := false } := by
  rw [MemberEntry.agesOut, Bool.and_eq_true, beq_iff_eq, decide_eq_true_iff] at h
  rw [MemberEntry.aged, if_pos h.1, if_pos h.2]

/-- From `s` to `t` the table changes in the eligible flags alone, and they as eligibility has it (R58). -/
def Reeligible (s t : State) : Prop :=
  t.members = s.members ∨ ∃ img was, t.members = s.members.map (fun e => { e with eligible := eligibleAfter img was e })

theorem Reeligible.of_writes {fs : List Field} {s t : State} (w : OnlyWrites fs s t) (h : Field.members ∉ fs := by decide) :
    Reeligible s t := .inl (w .members h)

theorem Reeligible.of_same {s u t : State} (h : u.members = s.members) (r : Reeligible u t) : Reeligible s t := by
  rw [Reeligible, ← h]
  exact r

theorem notice_reeligible (a : Action) (f : Frame) (c w : Bool) (s : State) : Reeligible s (notice a f c w s) :=
  .inr ⟨_, _, notice_members a f c w s⟩

theorem SettlesBy.reeligible {s u t : State} {f : Frame} {k : SettleKind} {a : Action} {complete : Bool}
    (h : SettlesBy s u t f k a complete) : Reeligible s t := by
  rw [h.notice]
  exact .of_same (h.writes .members (by decide)) (notice_reeligible _ _ _ _ _)

theorem takeAhead_reeligible (path : SettlePath) (f : Frame) (k : SettleKind) (o : FrameOrder) (s : State) :
    Reeligible s (takeAhead path f k o s) := by
  unfold takeAhead
  split
  · exact (settleCommit_settles s).reeligible
  · exact (settleAbandon_settles path s).reeligible
  · exact (resync_settles f _ s).reeligible
  · exact (resync_settles f _ s).reeligible
  · exact .inl rfl
  · exact .inl rfl

theorem settleRoundStart_reeligible (c : RoundContent) (s : State) : Reeligible s (settleRoundStart c s) := by
  unfold settleRoundStart
  split
  · refine .of_same (u := raiseOpenAge s) rfl ?_
    cases c with
    | nothing => exact .inl rfl
    | received k m =>
      unfold takeContent takeMark
      dsimp only
      split
      · exact .inl rfl
      · exact .of_writes (post_writes _ _ _ _)
      · exact takeAhead_reeligible _ _ _ _ _
      · exact takeAhead_reeligible _ _ _ _ _
    | own m verdict =>
      unfold takeContent takeOwnMark
      dsimp only
      split
      · split
        · exact (settleCommit_settles _).reeligible
        · exact (settleAbandon_settles _ _).reeligible
        · exact .inl rfl
      · exact .inl rfl
  · exact .of_writes (recordMark_writes c s)

theorem countJoin_reeligible (s : State) : Reeligible s (countJoin s) := by
  unfold countJoin
  dsimp only
  split
  · exact .inr ⟨_, _, enterMember_members _ _ _ _⟩
  · exact .inl rfl

/-- Station `k`'s entry is as the ageing of `e` leaves it, but for eligibility, and not eligible when `e` was due (R57). -/
def AgedTo (limit : Nat) (e e' : MemberEntry) : Prop :=
  e'.plain = (e.aged limit).plain ∧ (e.agesOut limit = true → e'.eligible = false)

theorem AgedTo.reeligible {limit : Nat} {e e' : MemberEntry} (h : AgedTo limit e e') (img : Image) (was : Bool) :
    AgedTo limit e { e' with eligible := eligibleAfter img was e' } := by
  obtain ⟨hplain, -⟩ := h
  refine ⟨hplain, fun hdue => ?_⟩
  rw [aged_of_agesOut hdue] at hplain
  have hstatus : e'.status = .absent := congrArg MemberEntry.status hplain
  show eligibleAfter img was e' = false
  rw [eligibleAfter, hstatus]

theorem member_map {l : List MemberEntry} {k : Nat} (h : k < l.length) (g : MemberEntry → MemberEntry) :
    (l.map g).getD k MemberEntry.unheard = g (l.getD k MemberEntry.unheard) := by simp [h]

theorem Reeligible.agedTo {s u t : State} {limit : Nat} (r : Reeligible u t)
    (h : u.members.length = 32 ∧ ∀ k, k < 32 → AgedTo limit (s.member k) (u.member k)) :
    t.members.length = 32 ∧ ∀ k, k < 32 → AgedTo limit (s.member k) (t.member k) := by
  obtain ⟨hlength, haged⟩ := h
  rcases r with hsame | ⟨img, was, hmap⟩
  · exact ⟨by rw [hsame]; exact hlength, fun k hk => by rw [State.member, State.member, hsame]; exact haged k hk⟩
  · refine ⟨by rw [hmap, List.length_map]; exact hlength, fun k hk => ?_⟩
    rw [State.member, State.member, hmap, member_map (by omega)]
    exact (haged k hk).reeligible img was

theorem Reeligible.plain {s u t : State} (r : Reeligible u t)
    (h : u.members.length = 32 ∧ ∀ k, k < 32 → (u.member k).plain = (s.member k).plain) :
    t.members.length = 32 ∧ ∀ k, k < 32 → (t.member k).plain = (s.member k).plain := by
  obtain ⟨hlength, hplain⟩ := h
  rcases r with hsame | ⟨img, was, hmap⟩
  · exact ⟨by rw [hsame]; exact hlength, fun k hk => by rw [State.member, hsame]; exact hplain k hk⟩
  · refine ⟨by rw [hmap, List.length_map]; exact hlength, fun k hk => ?_⟩
    rw [State.member, hmap, member_map (by omega)]
    exact hplain k hk

theorem arrive_reeligible {c : RoundContent} {a : RoundArrival} (h : a ≠ .ageing) (s : State) : Reeligible s (arrive c s a) := by
  by_cases hs : a = .settle
  · subst hs
    exact settleRoundStart_reeligible c s
  · exact .inl (arrive_members h hs s)

theorem tableRoundStart_agedTo {s u : State} (h : u.members.length = 32 ∧ ∀ k, k < 32 → (u.member k).plain = (s.member k).plain) :
    (tableRoundStart u).members.length = 32 ∧
      ∀ k, k < 32 → AgedTo u.image.absenceLimit (s.member k) ((tableRoundStart u).member k) := by
  obtain ⟨hlength, hplain⟩ := h
  refine ⟨by rw [tableRoundStart_members hlength, List.length_map]; exact hlength, fun k hk => ?_⟩
  obtain ⟨haged, hdue⟩ := plain_aged (limit := u.image.absenceLimit) (hplain k hk)
  show AgedTo _ _ ((tableRoundStart u).members.getD k _)
  rw [tableRoundStart_members hlength, member_map (by omega)]
  refine ⟨haged, fun h => ?_⟩
  rw [← hdue] at h
  exact congrArg MemberEntry.eligible (aged_of_agesOut h)

/-- A round start ages every entry, whatever it carries and whatever the order. -/
theorem roundStart_agedTo {s : State} (h : s.members.length = 32) (c : RoundContent) (o : Orders) :
    ∀ k, k < 32 → AgedTo s.image.absenceLimit (s.member k) ((roundStart c o s).member k) := by
  have harrivals : (roundArrivals c o s).members.length = 32 ∧
      ∀ k, k < 32 → AgedTo s.image.absenceLimit (s.member k) ((roundArrivals c o s).member k) := by
    refine roundArrivals_passes (a₀ := .ageing)
      (P := fun u => u.members.length = 32 ∧ ∀ k, k < 32 → (u.member k).plain = (s.member k).plain)
      (Q := fun u => u.members.length = 32 ∧ ∀ k, k < 32 → AgedTo s.image.absenceLimit (s.member k) (u.member k))
      (fun u a ha _ => (arrive_reeligible ha u).plain) (fun u a ha _ => (arrive_reeligible ha u).agedTo) (fun u w hu => ?_)
      ⟨h, fun k _ => rfl⟩
    rw [← image_of_writes w (by decide)]
    exact tableRoundStart_agedTo hu
  rw [roundStart_eq]
  split
  · exact ((countJoin_reeligible _).agedTo harrivals).2
  · exact harrivals.2

theorem execMemberAbsent_eq (s : State) (heard : List Byte) (o : Orders) : exec (.memberAbsent heard o) s =
    .next (if roundStartComes s heard && absenceDue s then takeBurst heard o s else s) := rfl

theorem agesOut_iff {limit : Nat} {e : MemberEntry} :
    e.agesOut limit = true ↔ e.status = .present ∧ limit ≤ min 15 (e.rounds + 1) := by
  rw [MemberEntry.agesOut, Bool.and_eq_true, beq_iff_eq, decide_eq_true_iff]
  rfl

theorem absenceDue_iff {s : State} :
    absenceDue s = true ↔ ∃ e ∈ s.members, e.status = .present ∧ s.image.absenceLimit ≤ min 15 (e.rounds + 1) := by
  simp only [absenceDue, List.any_eq_true, agesOut_iff]

/-- Settles O45. -/
theorem silentMembersBecomeAbsent : Obligations.SilentMembersBecomeAbsent := by
  refine ⟨fun s heard o j h hmembers hdue => ?_, fun s hmembers hempty => ?_, fun s heard o h => ?_⟩
  · have hcommand : exec (.memberAbsent heard o) s = exec (.burstTaken heard o) s := by
      refine congrArg Host.Outcome.next (if_pos ?_)
      rw [roundStartComes_of_hears h, absenceDue_iff.2 hdue]
      rfl
    have hexec := burstTaken_round h o
    have wu := countJudgment_same j s
    generalize countJudgment j (afterBurst s) = u at hexec wu
    have humembers : u.members = s.members := wu .members (by decide)
    refine ⟨_, hcommand.trans hexec, hexec, fun k hk => ?_⟩
    obtain ⟨hplain, heligible⟩ := roundStart_agedTo (by rw [humembers]; exact hmembers) (roundContent none j) o k hk
    rw [show u.member k = s.member k by rw [State.member, State.member, humembers], image_of_writes wu (by decide)]
      at hplain heligible
    generalize (roundStart (roundContent none j) o u).member k = e' at hplain heligible
    generalize s.member k = e at hplain heligible
    generalize s.image.absenceLimit = limit at hplain heligible
    have hsource : e'.source = (e.aged limit).source := (congrArg MemberEntry.source hplain :)
    have hsink : e'.sink = (e.aged limit).sink := (congrArg MemberEntry.sink hplain :)
    have hrecord : e'.record = (e.aged limit).record := (congrArg MemberEntry.record hplain :)
    have hstatus : e'.status = (e.aged limit).status := (congrArg MemberEntry.status hplain :)
    have hrounds : e'.rounds = (e.aged limit).rounds := (congrArg MemberEntry.rounds hplain :)
    rw [hsource, hsink, hrecord, hstatus, hrounds]
    by_cases hpresent : e.status = .present
    · rcases Nat.lt_or_ge (min 15 (e.rounds + 1)) limit with hlow | hhigh
      · have haged : e.aged limit = { e with rounds := min 15 (e.rounds + 1) } := by
          rw [MemberEntry.aged, if_pos hpresent]
          exact if_neg (Nat.not_le.2 hlow)
        rw [haged]
        exact ⟨rfl, rfl, rfl, fun hn => absurd hpresent hn, fun _ => ⟨rfl, fun _ => hpresent, fun hh => absurd hh (Nat.not_le.2 hlow)⟩⟩
      · have hout : e.agesOut limit = true := agesOut_iff.2 ⟨hpresent, hhigh⟩
        rw [aged_of_agesOut hout]
        exact ⟨rfl, rfl, rfl, fun hn => absurd hpresent hn,
          fun _ => ⟨rfl, fun hh => absurd hh (Nat.not_lt.2 hhigh), fun _ => ⟨rfl, heligible hout⟩⟩⟩
    · rw [show e.aged limit = e from if_neg hpresent]
      exact ⟨rfl, rfl, rfl, fun _ => ⟨rfl, rfl⟩, fun hp => absurd hp hpresent⟩
  · obtain ⟨-, -, hport⟩ := visits (MemberEntry.agesOut s.image.absenceLimit) (MemberEntry.aged s.image.absenceLimit) s 32
      (by omega)
    have hroom : (absences (MemberEntry.agesOut s.image.absenceLimit) s (List.range 32)).length ≤ 32 := by
      rw [absences, List.length_map]
      exact (List.length_filter_le _ _).trans (List.length_range).le
    have hport := hport (by rw [hempty, List.length_nil, Nat.zero_add]; exact hroom)
    rw [tableRoundStart_eq, show stationNumbers = List.range 32 from rfl, hport, hempty]
    refine (List.nil_append _).trans ?_
    unfold absences
    exact congrArg (List.map _) (List.filter_congr fun k _ => rfl)
  · rw [execMemberAbsent_eq, if_neg]
    rw [Bool.and_eq_true, absenceDue_iff]
    rintro ⟨hcomes, e, he, hpresent, hlimit⟩
    rcases h with h | h
    · rw [roundStartComes_of_quiet h] at hcomes
      exact Bool.false_ne_true hcomes
    · exact absurd (h e he hpresent) (Nat.not_lt.2 hlimit)

end Sys2Proof.Machine
end

section
/-! The capture unit: frame starts and rows. -/

namespace Sys2Proof.Machine

/-! ## What the capture operations leave (R90, R93, R94) -/

section
variable {s : State}

theorem checkPublished_capture (s : State) :
    (checkPublished s).capture = { s.capture with published := (checkPublished s).capture.published } := by
  unfold checkPublished
  split
  · dsimp only
    split
    · rw [show ∀ u, (ownPublished u).capture = u.capture from fun u => ownPublished_writes u .capture (by decide)]
      rfl
    · rfl
  · rfl

theorem checkPublished_port (s : State) : (checkPublished s).port = s.port := checkPublished_writes s .port (by decide)

theorem offerRow_events (l : List Piece) (s : State) : (offerRow l s).port.events = s.port.events := by
  unfold offerRow
  split
  · rfl
  · rfl

theorem produceRow_events (l : List Piece) (s : State) : (produceRow l s).port.events = s.port.events := offerRow_events l _

theorem endCaptureWithFill_events (s : State) : (endCaptureWithFill s).port.events = s.port.events :=
  produceFillRows_induct (p := fun t => t.port.events = s.port.events) (fun t ht => (produceRow_events _ t).trans ht) _ s rfl

theorem produceFillRow_counter (h : s.port.counters.length = 22) : (produceFillRow s).counter .fillPieces =
    min 65535 (s.counter .fillPieces + (ownEntry s).pieces) := by
  have hreports := produceRow_reports (rowPieces s true []) s
  refine (counter_raise_self (hreports.length.trans h)).trans ?_
  rw [hreports.counters .fillPieces (by decide)]
  rfl

theorem produceFillRows_counter (n : Nat) : ∀ s : State, s.port.counters.length = 22 → s.counter .fillPieces ≤ 65535 →
    (produceFillRows n s).counter .fillPieces = min 65535 (s.counter .fillPieces + n * (ownEntry s).pieces) := by
  induction n with
  | zero =>
    intro s _ hs
    rw [Nat.zero_mul, Nat.add_zero, Nat.min_eq_right hs]
    rfl
  | succ n ih =>
    intro s hlength hs
    have hown : ownEntry (produceFillRow s) = ownEntry s := ownEntry_of_writes (produceFillRow_writes s) (by decide)
    have hrow := produceFillRow_counter hlength
    refine (ih _ ((produceFillRow_reports s).length.trans hlength) (by rw [hrow]; exact Nat.min_le_left _ _)).trans ?_
    rw [hrow, hown, Nat.succ_mul]
    omega

theorem counter_le (h : WithinCapacity s) (c : Counter) : s.counter c ≤ 65535 := by
  obtain ⟨-, hbound⟩ := h.counters
  rw [State.counter, List.getD_eq_getElem?_getD]
  cases he : s.port.counters[c.place]? with
  | none => exact Nat.zero_le _
  | some n => exact hbound n (List.mem_of_getElem? he)

theorem endCaptureWithFill_counter (hlength : s.port.counters.length = 22) (h : s.counter .fillPieces ≤ 65535) :
    (endCaptureWithFill s).counter .fillPieces =
      min 65535 (s.counter .fillPieces + ((ownEntry s).height - s.capture.rowCount) * (ownEntry s).pieces) :=
  produceFillRows_counter _ s hlength h

theorem TestsPublished.of_same {s v t : State} (h : TestsPublished s v) (hpublished : t.capture.published = v.capture.published)
    (hoffer : t.capture.offer = v.capture.offer) (hstate : t.capture.state = v.capture.state)
    (hqueue : t.publishQueue = v.publishQueue) (hrequester : t.requester = v.requester) : TestsPublished s t where
  flag := by
    rw [hpublished, hoffer, hstate, hqueue]
    exact h.flag
  untold := by
    rw [hpublished, hrequester]
    exact h.untold
  told := by
    rw [hpublished, hrequester]
    exact h.told

/-! ## Frame starts (R86, R87, R89) -/

/-- The status port after a frame start has told of the input (R86). -/
def inputPort (s : State) : StatusPort :=
  if s.capture.input = .lost then (post .inputLive (s.settle.frame + 1) 0 s).port else s.port

theorem inputFrameStart_eq (s : State) : inputFrameStart s =
    (s.setCapture { s.capture with input := .live, silence := 0 }).setPort (inputPort s) := by
  unfold inputFrameStart inputPort
  split
  next hlost =>
    rw [post_eq_setPort, post_port_congr (s := s) (t := s.setCapture { s.capture with input := .live, silence := 0 })
      .inputLive _ 0 rfl rfl]
    rfl
  next hlive =>
    have hinput : s.capture.input = .live := by
      cases h : s.capture.input with
      | live => rfl
      | lost => exact absurd h hlive
    rw [← hinput]
    rfl

theorem takeFrameStart_of_not_source (h : s.image.sourceRole = false) : takeFrameStart s = s := by
  rw [takeFrameStart, h]
  rfl

theorem takeFrameStart_of_loading (h : s.station.state = .loading) : takeFrameStart s = s := by
  unfold takeFrameStart
  rw [h]
  exact ite_self s

theorem takeFrameStart_in_isolated (hsource : s.image.sourceRole = true) (h : s.station.state = .isolated) :
    takeFrameStart s = s.setCapture { s.capture with disposition := .skipped, shapeFaultPosted := false } := by
  unfold takeFrameStart
  rw [if_pos hsource, h]
  rfl

theorem takeFrameStart_of_listen (hsource : s.image.sourceRole = true) (h : s.station.state = .listen) :
    takeFrameStart s = newInputFrame (inputFrameStart s) := by
  unfold takeFrameStart
  rw [if_pos hsource, h]

theorem takeFrameStart_of_member (hsource : s.image.sourceRole = true) (h : s.station.state = .member) :
    takeFrameStart s = newInputFrame (captureFrameStart (inputFrameStart s)) := by
  unfold takeFrameStart
  rw [if_pos hsource, h]

theorem captureFrameStart_of_waiting (h : s.capture.state = .waiting) : captureFrameStart s =
    s.setCapture { s.capture with state := .capturing, rowCount := 0, disposition := .taken } := by
  rw [captureFrameStart, h]

theorem captureFrameStart_of_capturing (h : s.capture.state = .capturing) : captureFrameStart s =
    checkPublished (skipInputFrame (endCaptureWithFill (postShapeFault 4 s))) := by
  rw [captureFrameStart, h]

theorem captureFrameStart_of_holding_or_dormant (h : s.capture.state = .holding ∨ s.capture.state = .dormant) :
    captureFrameStart s = skipInputFrame s := by
  rcases h with h | h <;> rw [captureFrameStart, h]

theorem inputFrameStart_state (s : State) : (inputFrameStart s).capture = { s.capture with input := .live, silence := 0 } := by
  rw [inputFrameStart_eq]
  rfl

/-- A capture cut by a frame start, before the published flag is tested (R89, R93). -/
def cutByFrameStart (s : State) : State := skipInputFrame (endCaptureWithFill (postShapeFault 4 (inputFrameStart s)))

theorem cutByFrameStart_writes (s : State) : OnlyWrites [.capture, .ring, .publishQueue, .port] s (cutByFrameStart s) := by
  refine .followedBy ?_ (skipInputFrame_writes _) (by decide)
  refine .followedBy ?_ (endCaptureWithFill_writes _) (by decide)
  exact .followedBy ((inputFrameStart_writes s).widen (by decide)) (postShapeFault_writes _ _) (by decide)

theorem cutByFrameStart_capture (s : State) : (cutByFrameStart s).capture = { s.capture with
    input := .live, silence := 0, shapeFaultPosted := true, state := .holding, disposition := .skipped,
    rowCount := s.capture.rowCount + ((ownEntry s).height - s.capture.rowCount) } := by
  have hown : ownEntry (postShapeFault 4 (inputFrameStart s)) = ownEntry s := by
    rw [ownEntry_of_writes (postShapeFault_writes 4 _) (by decide), ownEntry_of_writes (inputFrameStart_writes s) (by decide)]
  show { (endCaptureWithFill (postShapeFault 4 (inputFrameStart s))).capture with disposition := Disposition.skipped } = _
  rw [endCaptureWithFill_capture, hown, postShapeFault_capture, inputFrameStart_state]

theorem postShapeFault_events {d : Byte} (h : s.capture.shapeFaultPosted = false) (hroom : s.port.events.length < 32) :
    (postShapeFault d s).port.events =
      s.port.events ++ [⟨.shapeFault, s.roundTimer.number, s.capture.offer.getD (s.settle.frame + 1), d⟩] := by
  rw [postShapeFault, h, if_neg Bool.false_ne_true]
  exact post_events hroom

theorem postShapeFault_of_posted {d : Byte} (h : s.capture.shapeFaultPosted = true) : postShapeFault d s = s := if_pos h

theorem inputFrameStart_reports (s : State) : Reports [] s (inputFrameStart s) := by
  unfold inputFrameStart
  split
  · exact (Reports.of_writes (setCapture_writes _ _)).trans (post_reports _ _ _ _)
  · exact .of_writes (setCapture_writes _ _)

end

/-- Settles O48. -/
theorem frameStartByCaptureState : Obligations.FrameStartByCaptureState := by
  intro s
  refine ⟨?_, fun hsource hi => congrArg _ (takeFrameStart_in_isolated hsource hi), fun p hp => ⟨fun hsource hl => ?_,
    fun hsource hm hw => ?_, fun hsource hm hh => ?_⟩, fun hsource hm hc => ?_⟩
  · rintro (h | h)
    · exact congrArg _ (takeFrameStart_of_not_source h)
    · exact congrArg _ (takeFrameStart_of_loading h)
  · obtain rfl : p = inputPort s := hp
    refine congrArg Host.Outcome.next ((takeFrameStart_of_listen hsource hl).trans ?_)
    rw [inputFrameStart_eq]
    rfl
  · obtain rfl : p = inputPort s := hp
    refine congrArg Host.Outcome.next ((takeFrameStart_of_member hsource hm).trans ?_)
    rw [captureFrameStart_of_waiting (by rw [inputFrameStart_state]; exact hw), inputFrameStart_eq]
    rfl
  · obtain rfl : p = inputPort s := hp
    refine congrArg Host.Outcome.next ((takeFrameStart_of_member hsource hm).trans ?_)
    rw [captureFrameStart_of_holding_or_dormant (by rw [inputFrameStart_state]; exact hh), inputFrameStart_eq]
    rfl
  · have heq : takeFrameStart s = newInputFrame (checkPublished (cutByFrameStart s)) := by
      rw [takeFrameStart_of_member hsource hm, captureFrameStart_of_capturing (by rw [inputFrameStart_state]; exact hc)]
      rfl
    have hcapture := cutByFrameStart_capture s
    have hflag := checkPublished_capture (cutByFrameStart s)
    have htests : TestsPublished s (checkPublished (cutByFrameStart s)) :=
      checkPublished_tests (isMember_iff.2 hm) (cutByFrameStart_writes s) (by rw [hcapture])
    have hport : (newInputFrame (checkPublished (cutByFrameStart s))).port = (cutByFrameStart s).port := checkPublished_port _
    have hpost : Reports [] s (postShapeFault 4 (inputFrameStart s)) :=
      (inputFrameStart_reports s).trans (postShapeFault_reports _ _)
    refine ⟨_, congrArg Host.Outcome.next heq, ?_, ?_, ?_, rfl, ?_, ?_, ?_, htests.of_same rfl rfl rfl rfl rfl, fun hcount => ?_, fun hcapacity => ?_,
      fun hlive hposted hroom => ?_⟩
    · rw [← heq]
      exact takeFrameStart_writes s
    · show (checkPublished (cutByFrameStart s)).capture.state = _
      rw [hflag, hcapture]
    · show (checkPublished (cutByFrameStart s)).capture.disposition = _
      rw [hflag, hcapture]
    · show (checkPublished (cutByFrameStart s)).capture.offer = _
      rw [hflag, hcapture]
    · show (checkPublished (cutByFrameStart s)).capture.input = _
      rw [hflag, hcapture]
    · show (checkPublished (cutByFrameStart s)).capture.silence = _
      rw [hflag, hcapture]
    · have hfill := endCaptureWithFill_reports (postShapeFault 4 (inputFrameStart s))
      rw [State.counter, hport]
      refine (counter_raise_self (s := (endCaptureWithFill (postShapeFault 4 (inputFrameStart s))).setCapture _) (n := 1)
        (hfill.length.trans (hpost.length.trans hcount))).trans ?_
      show min 65535 ((endCaptureWithFill (postShapeFault 4 (inputFrameStart s))).counter .inputFramesSkipped + 1) = _
      rw [hfill.counters _ (by decide), hpost.counters _ (by decide)]
    · have hown : ownEntry (postShapeFault 4 (inputFrameStart s)) = ownEntry s := by
        rw [ownEntry_of_writes (postShapeFault_writes 4 _) (by decide), ownEntry_of_writes (inputFrameStart_writes s) (by decide)]
      have hcounter : (postShapeFault 4 (inputFrameStart s)).counter .fillPieces = s.counter .fillPieces :=
        hpost.counters _ (by decide)
      have hfill := endCaptureWithFill_counter (s := postShapeFault 4 (inputFrameStart s))
        (hpost.length.trans hcapacity.counters.1) (by rw [hcounter]; exact counter_le hcapacity _)
      rw [hcounter, hown, postShapeFault_capture, inputFrameStart_state] at hfill
      rw [State.counter, hport]
      exact (counter_raise_of_ne (by decide) 1 _).trans hfill
    · have hquiet : (inputFrameStart s).port = s.port := by
        rw [inputFrameStart_eq]
        exact if_neg (by rw [hlive]; simp)
      rw [hport]
      show (endCaptureWithFill (postShapeFault 4 (inputFrameStart s))).port.events = _
      rw [endCaptureWithFill_events, postShapeFault_events (by rw [inputFrameStart_state]; exact hposted)
        (by rw [hquiet]; exact hroom), hquiet, inputFrameStart_state]
      rw [show (inputFrameStart s).roundTimer = s.roundTimer from inputFrameStart_writes s .roundTimer (by decide),
        show (inputFrameStart s).settle = s.settle from inputFrameStart_writes s .settle (by decide)]

/-! ## Rows (R85, R90, R91, R97, R99) -/

section
variable {s : State}

theorem ownEntry_of_own {a : Nat} (h : s.image.ownStream = some a) : ownEntry s = s.image.stream a := by rw [ownEntry, h]

theorem ownStreamId_of_own {a : Nat} (h : s.image.ownStream = some a) : ownStreamId s = a := by
  rw [ownStreamId, h]
  rfl

theorem takeRow_of_not_source (h : s.image.sourceRole = false ∨ s.station.state ≠ .member) (pixels : List Pixel) :
    takeRow pixels s = s := by
  refine if_neg ?_
  rw [State.actsAsSource, Bool.and_eq_true, isMember_iff]
  rintro ⟨hm, hsource⟩
  rcases h with h | h
  · exact Bool.false_ne_true (h.symm.trans hsource)
  · exact h hm

theorem takeRow_of_source (hsource : s.image.sourceRole = true) (hm : s.station.state = .member) (pixels : List Pixel) :
    takeRow pixels s = dispatchRow pixels (endSilence s) := by
  refine if_pos ?_
  rw [State.actsAsSource, Bool.and_eq_true, isMember_iff]
  exact ⟨hm, hsource⟩

theorem endSilence_of_not_capturing (h : s.capture.state ≠ .capturing) : endSilence s = s := if_neg h

theorem endSilence_of_capturing (h : s.capture.state = .capturing) :
    endSilence s = s.setCapture { s.capture with silence := 0 } := if_pos h

theorem dispatchRow_of_skipped (h : s.capture.disposition = .skipped) (pixels : List Pixel) : dispatchRow pixels s = s := by
  rw [dispatchRow, h]

theorem dispatchRow_of_idle (h : s.capture.state = .waiting ∨ s.capture.state = .dormant) (pixels : List Pixel) :
    dispatchRow pixels s = s := by
  cases hd : s.capture.disposition with
  | skipped => exact dispatchRow_of_skipped hd pixels
  | taken => rcases h with h | h <;> rw [dispatchRow, hd, h]

theorem dispatchRow_of_holding (hd : s.capture.disposition = .taken) (h : s.capture.state = .holding) (pixels : List Pixel) :
    dispatchRow pixels s = postShapeFault 3 s := by rw [dispatchRow, hd, h]

theorem dispatchRow_of_capturing (hd : s.capture.disposition = .taken) (h : s.capture.state = .capturing)
    (pixels : List Pixel) : dispatchRow pixels s = captureRow pixels s := by rw [dispatchRow, hd, h]

/-- The shape fault a row of the wrong length brings (R91). -/
def rowFault (w : Nat) (pixels : List Pixel) (s : State) : State :=
  if pixels.length < w then postShapeFault 1 s else if w < pixels.length then postShapeFault 2 s else s

theorem captureRow_eq (pixels : List Pixel) (s : State) : captureRow pixels s =
    checkPublished (produceRow (rowPieces (rowFault (ownEntry s).width pixels s) false
      (fitRow (ownEntry s).width (rowFault (ownEntry s).width pixels s).image.background pixels))
      (rowFault (ownEntry s).width pixels s)) := rfl

theorem rowFault_writes (w : Nat) (pixels : List Pixel) (s : State) : OnlyWrites [.capture, .port] s (rowFault w pixels s) := by
  unfold rowFault
  split
  · exact postShapeFault_writes _ _
  split
  · exact postShapeFault_writes _ _
  · exact .refl

theorem rowFault_reports (w : Nat) (pixels : List Pixel) (s : State) : Reports [] s (rowFault w pixels s) := by
  unfold rowFault
  split
  · exact postShapeFault_reports _ _
  split
  · exact postShapeFault_reports _ _
  · exact .refl

theorem rowFault_of_fit {w : Nat} {pixels : List Pixel} (h : pixels.length = w) : rowFault w pixels s = s := by
  rw [rowFault, if_neg (by omega), if_neg (by omega)]

theorem rowFault_of_ne {w : Nat} {pixels : List Pixel} (h : pixels.length ≠ w) :
    rowFault w pixels s = postShapeFault (if pixels.length < w then 1 else 2) s := by
  unfold rowFault
  split
  · rfl
  · rw [if_pos (by omega)]

theorem rowFault_capture (w : Nat) (pixels : List Pixel) (s : State) : (rowFault w pixels s).capture =
    { s.capture with shapeFaultPosted := s.capture.shapeFaultPosted || pixels.length != w } := by
  by_cases h : pixels.length = w
  · rw [rowFault_of_fit h, h, bne_self_eq_false, Bool.or_false]
  · rw [rowFault_of_ne h, postShapeFault_capture, bne_iff_ne.2 h, Bool.or_true]

theorem rowFault_events_of_posted {w : Nat} {pixels : List Pixel} (h : pixels.length = w ∨ s.capture.shapeFaultPosted = true) :
    (rowFault w pixels s).port.events = s.port.events := by
  by_cases hw : pixels.length = w
  · rw [rowFault_of_fit hw]
  · rw [rowFault_of_ne hw, postShapeFault_of_posted (h.resolve_left hw)]

theorem fitRow_eq (w : Nat) (background : Pixel) (pixels : List Pixel) : fitRow w background pixels =
    if pixels.length < w then pixels ++ List.replicate (w - pixels.length) background else pixels.take w := by
  unfold fitRow
  split
  next h => rw [List.take_of_length_le (Nat.le_of_lt h)]
  next h => rw [Nat.sub_eq_zero_of_le (Nat.not_lt.1 h), List.replicate_zero, List.append_nil]

theorem produceRow_publishQueue (l : List Piece) (s : State) : (produceRow l s).publishQueue =
    if l.length ≤ 64 - s.publishQueue.length then s.publishQueue ++ l else s.publishQueue := by
  show (offerRow l (s.setRing (l.foldl enterRing s.ring))).publishQueue = _
  unfold offerRow
  split
  next h => rw [if_pos (show l.length ≤ 64 - s.publishQueue.length from h)]; rfl
  next h => rw [if_neg (show ¬ l.length ≤ 64 - s.publishQueue.length from h)]; rfl

theorem produceRow_counter {l : List Piece} (hcount : s.port.counters.length = 22) : (produceRow l s).counter .rowsWithheld =
    if l.length ≤ 64 - s.publishQueue.length then s.counter .rowsWithheld else min 65535 (s.counter .rowsWithheld + 1) := by
  show (offerRow l (s.setRing (l.foldl enterRing s.ring))).counter .rowsWithheld = _
  unfold offerRow
  split
  next h => rw [if_pos (show l.length ≤ 64 - s.publishQueue.length from h)]; rfl
  next h =>
    rw [if_neg (show ¬ l.length ≤ 64 - s.publishQueue.length from h)]
    exact counter_raise_self (s := s.setRing (l.foldl enterRing s.ring)) hcount

theorem checkPublished_queue (s : State) : (checkPublished s).publishQueue = s.publishQueue :=
  checkPublished_writes s .publishQueue (by decide)

/-- The pieces of a captured row (R90). -/
theorem rowPieces_of_own {a : Nat} (h : s.image.ownStream = some a) (row : List Pixel) : rowPieces s false row =
    (List.range (s.image.stream a).pieces).map (fun i =>
      ⟨a, s.capture.offer.getD 0, (s.image.stream a).y0 + s.capture.rowCount, i, (s.image.stream a).piecePixels i,
        (s.image.stream a).format, false,
        packPayload (s.image.stream a).format ((row.drop (256 * i)).take ((s.image.stream a).piecePixels i))⟩) := by
  unfold rowPieces
  rw [ownEntry_of_own h]
  refine List.map_congr_left fun i _ => ?_
  unfold rowPiece
  rw [ownEntry_of_own h, ownStreamId_of_own h]
  rfl

end

/-- Settles O49. -/
theorem rowCompletionCapturesRow : Obligations.RowCompletionCapturesRow := by
  intro s pixels
  refine ⟨fun h => congrArg _ (takeRow_of_not_source h pixels), fun hsource hm => ?_⟩
  have htake := takeRow_of_source hsource hm pixels
  refine ⟨fun hd hc => ?_, fun hidle => ?_, fun hd hh => ?_, fun a e hd hc hown he hring row pieces hrow hpieces => ?_⟩
  · refine congrArg Host.Outcome.next (htake.trans ?_)
    rw [endSilence_of_not_capturing hc, dispatchRow_of_skipped hd]
  · refine congrArg Host.Outcome.next (htake.trans ?_)
    rw [endSilence_of_not_capturing (by rcases hidle with h | h <;> rw [h] <;> decide), dispatchRow_of_idle hidle]
  · rw [endSilence_of_not_capturing (by rw [hh]; decide), dispatchRow_of_holding hd hh] at htake
    refine ⟨fun hposted => congrArg Host.Outcome.next (htake.trans (postShapeFault_of_posted hposted)), fun hposted => ?_⟩
    refine congrArg Host.Outcome.next (htake.trans ?_)
    rw [postShapeFault, hposted, if_neg Bool.false_ne_true]
    dsimp only
    rw [show (post .shapeFault (shapeFaultFrame s) 3 s).capture = s.capture from post_writes _ _ _ _ .capture (by decide)]
    rfl
  · rw [endSilence_of_capturing hc] at htake
    generalize hu : s.setCapture { s.capture with silence := 0 } = u at htake
    have hucapture : u.capture = { s.capture with silence := 0 } := by rw [← hu]; rfl
    have wu : OnlyWrites [.capture] s u := by
      rw [← hu]
      exact setCapture_writes _ _
    have huown : ownEntry u = e := by
      rw [ownEntry_of_own (by rw [image_of_writes wu (by decide)]; exact hown), image_of_writes wu (by decide), he]
    rw [dispatchRow_of_capturing (by rw [hucapture]; exact hd) (by rw [hucapture]; exact hc), captureRow_eq, huown] at htake
    have wfault := rowFault_writes e.width pixels u
    have hreports := rowFault_reports e.width pixels u
    have hfault := rowFault_capture e.width pixels u
    have hposted := rowFault_events_of_posted (s := u) (w := e.width) (pixels := pixels)
    have hpost := postShapeFault_events (s := u) (d := if pixels.length < e.width then 1 else 2)
    have hne := rowFault_of_ne (s := u) (w := e.width) (pixels := pixels)
    generalize rowFault e.width pixels u = v at htake wfault hreports hfault hposted hne
    have wv : OnlyWrites [.capture, .port] s v := .followedBy (wu.widen (by decide)) wfault (by decide)
    have hvimage : v.image = s.image := image_of_writes wv (by decide)
    have hvown : ownEntry v = e := by
      rw [ownEntry_of_writes wfault (by decide), huown]
    have hvpieces : rowPieces v false (fitRow e.width v.image.background pixels) = pieces := by
      rw [rowPieces_of_own (by rw [hvimage]; exact hown), hvimage, fitRow_eq, ← hrow, hpieces, he, hfault, hucapture]
    rw [hvpieces] at htake
    have hvring : v.ring = s.ring := wv .ring (by decide)
    have hvqueue : v.publishQueue = s.publishQueue := wv .publishQueue (by decide)
    have hvcounter : v.counter .rowsWithheld = s.counter .rowsWithheld := by
      rw [hreports.counters _ (by decide), State.counter, show u.port = s.port from wu .port (by decide)]
      rfl
    have hvlength : v.port.counters.length = s.port.counters.length := by
      rw [hreports.length, show u.port = s.port from wu .port (by decide)]
    have hcapture := checkPublished_capture (produceRow pieces v)
    rw [produceRow_capture, hvown, hfault, hucapture] at hcapture
    have htests : TestsPublished s (checkPublished (produceRow pieces v)) := by
      refine checkPublished_tests (isMember_iff.2 hm) ?_ ?_
      · exact .followedBy (wv.widen (by decide)) (produceRow_writes _ _) (by decide)
      · rw [produceRow_capture, hfault, hucapture]
    have hevents : (checkPublished (produceRow pieces v)).port.events = v.port.events := by
      rw [checkPublished_port, produceRow_events]
    refine ⟨_, congrArg Host.Outcome.next htake, ?_, htests, ?_, ?_, fun hcount => ?_, ?_, ?_, ?_, ?_, ?_, fun h => ?_,
      fun hw hnot hroom => ⟨?_, ?_⟩⟩
    · rw [← htake]
      exact takeRow_writes pixels s
    · rw [show (checkPublished (produceRow pieces v)).ring = (produceRow pieces v).ring from
        checkPublished_writes _ .ring (by decide), produceRow_ring, hvring, foldl_enterRing pieces s.ring hring]
    · rw [checkPublished_queue, produceRow_publishQueue, hvqueue]
    · rw [State.counter, checkPublished_port]
      refine (produceRow_counter (hvlength.trans hcount)).trans ?_
      rw [hvqueue, hvcounter]
    · rw [hcapture]
    · rw [hcapture]
    · rw [hcapture]
    · rw [hcapture]
      exact hd
    · rw [hcapture]
      dsimp only
      rw [hc]
    · rw [hevents, hposted (by rw [hucapture]; exact h), show u.port = s.port from wu .port (by decide)]
    · rw [hcapture]
      show (s.capture.shapeFaultPosted || pixels.length != e.width) = true
      rw [bne_iff_ne.2 hw, Bool.or_true]
    · have huport : u.port = s.port := wu .port (by decide)
      rw [hevents, hne hw, hpost (by rw [hucapture]; exact hnot) (by rw [huport]; exact hroom), huport, hucapture,
        show u.roundTimer = s.roundTimer from wu .roundTimer (by decide), show u.settle = s.settle from wu .settle (by decide)]

end Sys2Proof.Machine
end

section
/-! An input that falls silent at a round start. -/

namespace Sys2Proof.Machine

/-! ## The capture unit at a round start (R85, R86, R92) -/

section
variable {s : State}

theorem checkPublished_flag (s : State) : (checkPublished s).capture.published = true ↔
    s.capture.published = true ∨ (s.capture.offer ≠ none ∧ s.capture.state = .holding ∧ s.publishQueue = []) := by
  have hconditions : publishedConditions s = true ↔
      s.capture.offer ≠ none ∧ s.capture.state = .holding ∧ s.publishQueue = [] := by
    simp [publishedConditions, and_assoc, Option.isSome_iff_ne_none]
  rw [← hconditions]
  by_cases h : (publishedConditions s && !s.capture.published) = true
  · have hset : (checkPublished s).capture.published = true := by
      rw [checkPublished, if_pos h]
      dsimp only
      split
      · rw [show ∀ u, (ownPublished u).capture = u.capture from fun u => ownPublished_writes u .capture (by decide)]
        rfl
      · rfl
    rw [Bool.and_eq_true] at h
    exact iff_of_true hset (.inr h.1)
  · rw [show checkPublished s = s from if_neg h]
    rw [Bool.and_eq_true, Bool.not_eq_true', not_and, Bool.not_eq_false] at h
    exact ⟨.inl, fun hc => hc.elim id h⟩

/-- The input is LOST, with its silence counted (R86). -/
def lostFrom (s : State) : State :=
  s.setCapture { s.capture with silence := saturate Config.count8 s.capture.silence 1, input := .lost }

/-- A capture cut by the loss of the input, before the published flag is tested (R92, R93). -/
def cutByLoss (s : State) : State :=
  post .inputLost s.openFrame 1
    ((endCaptureWithFill (lostFrom s)).setCapture { (endCaptureWithFill (lostFrom s)).capture with disposition := .skipped })

theorem endCaptureWithFill_openFrame (s : State) : (endCaptureWithFill s).openFrame = s.openFrame := by
  rw [State.openFrame, State.openFrame, show (endCaptureWithFill s).settle = s.settle from
    endCaptureWithFill_writes s .settle (by decide)]

theorem inputLossDue_iff : inputLossDue s = true ↔ s.image.sourceRole = true ∧ s.capture.input = .live ∧
    s.image.silenceLimit ≤ min 255 (s.capture.silence + 1) := by
  rw [inputLossDue, Bool.and_eq_true, Bool.and_eq_true, beq_iff_eq, decide_eq_true_iff, and_assoc]
  rfl

theorem captureRoundStart_of_due (h : inputLossDue s = true) : captureRoundStart s =
    loseInput (s.setCapture { s.capture with silence := saturate Config.count8 s.capture.silence 1 }) := by
  obtain ⟨hsource, hlive, -⟩ := inputLossDue_iff.1 h
  unfold captureRoundStart
  rw [hsource, hlive, h]
  rfl

theorem captureRoundStart_capturing (h : inputLossDue s = true) (hc : s.capture.state = .capturing) :
    captureRoundStart s = checkPublished (cutByLoss s) := by
  rw [captureRoundStart_of_due h]
  refine (if_pos hc).trans ?_
  unfold cutByLoss
  rw [← show (endCaptureWithFill (lostFrom s)).openFrame = s.openFrame from endCaptureWithFill_openFrame _]
  rfl

theorem captureRoundStart_idle (h : inputLossDue s = true) (hc : s.capture.state ≠ .capturing) :
    captureRoundStart s = post .inputLost s.openFrame 0 (lostFrom s) := by
  rw [captureRoundStart_of_due h]
  exact if_neg hc

theorem cutByLoss_writes (s : State) : OnlyWrites [.capture, .ring, .publishQueue, .port] s (cutByLoss s) := by
  refine .followedBy (gs := [.port]) ?_ (post_writes _ _ _ _) (by decide)
  refine .followedBy (gs := [.capture]) ?_ (setCapture_writes _ _) (by decide)
  exact .followedBy ((setCapture_writes _ _).widen (by decide)) (endCaptureWithFill_writes _) (by decide)

theorem cutByLoss_capture (s : State) : (cutByLoss s).capture = { s.capture with
    silence := min 255 (s.capture.silence + 1), input := .lost, state := .holding, disposition := .skipped,
    rowCount := s.capture.rowCount + ((ownEntry s).height - s.capture.rowCount) } := by
  refine (post_writes _ _ _ _ .capture (by decide)).trans ?_
  rw [State.setCapture_capture, endCaptureWithFill_capture]
  rfl

theorem cutByLoss_counter (hlength : s.port.counters.length = 22) (h : s.counter .fillPieces ≤ 65535) :
    (cutByLoss s).counter .fillPieces =
      min 65535 (s.counter .fillPieces + ((ownEntry s).height - s.capture.rowCount) * (ownEntry s).pieces) :=
  ((post_reports (cs := []) _ _ _ _).counters .fillPieces (by decide)).trans
    (endCaptureWithFill_counter (s := lostFrom s) hlength h)

theorem cutByLoss_tests (hm : s.isMember = true) : TestsPublished s (checkPublished (cutByLoss s)) :=
  checkPublished_tests hm (cutByLoss_writes s) (by rw [cutByLoss_capture])

theorem captureRoundStart_lost (h : inputLossDue s = true) : (captureRoundStart s).capture.input = .lost := by
  by_cases hc : s.capture.state = .capturing
  · rw [captureRoundStart_capturing h hc, checkPublished_capture, cutByLoss_capture]
  · rw [captureRoundStart_idle h hc, show (post _ _ _ _).capture = (lostFrom s).capture from post_writes _ _ _ _ .capture (by decide)]
    rfl

/-! ## Captures locked by a settle -/

/-- From `s` to `t` the capture unit is as it was, or as a settle leaves it (R88). -/
def Relocked (s t : State) : Prop := t.capture = s.capture ∨ ∃ f, t.capture = lockedCapture f s.capture

theorem Relocked.of_writes {fs : List Field} {s t : State} (w : OnlyWrites fs s t) (h : Field.capture ∉ fs := by decide) :
    Relocked s t := .inl (w .capture h)

theorem Relocked.input {s t : State} (h : Relocked s t) :
    t.capture.input = s.capture.input ∧ t.capture.silence = s.capture.silence := by
  rcases h with h | ⟨f, h⟩ <;> rw [h] <;> exact ⟨rfl, rfl⟩

theorem SettlesBy.relocked {s u t : State} {f : Frame} {k : SettleKind} {a : Action} {complete : Bool}
    (h : SettlesBy s u t f k a complete) : Relocked s t := by
  cases hsource : s.image.sourceRole with
  | true => exact .inr ⟨_, (h.source hsource).2.2.2⟩
  | false => exact .of_writes (h.writes_of_not_source hsource)

theorem takeAhead_relocked (path : SettlePath) (f : Frame) (k : SettleKind) (o : FrameOrder) (s : State) :
    Relocked s (takeAhead path f k o s) := by
  unfold takeAhead
  split
  · exact (settleCommit_settles s).relocked
  · exact (settleAbandon_settles path s).relocked
  · exact (resync_settles f _ s).relocked
  · exact (resync_settles f _ s).relocked
  · exact .inl rfl
  · exact .inl rfl

theorem settleRoundStart_relocked (c : RoundContent) (s : State) : Relocked s (settleRoundStart c s) := by
  unfold settleRoundStart
  split
  · show Relocked (raiseOpenAge s) _
    cases c with
    | nothing => exact .inl rfl
    | received k m =>
      unfold takeContent takeMark
      dsimp only
      split
      · exact .inl rfl
      · exact .of_writes (post_writes _ _ _ _)
      · exact takeAhead_relocked _ _ _ _ _
      · exact takeAhead_relocked _ _ _ _ _
    | own m verdict =>
      unfold takeContent takeOwnMark
      dsimp only
      split
      · split
        · exact (settleCommit_settles _).relocked
        · exact (settleAbandon_settles _ _).relocked
        · exact .inl rfl
      · exact .inl rfl
  · exact .of_writes (recordMark_writes c s)

theorem countJoin_relocked (s : State) : Relocked s (countJoin s) := by
  unfold countJoin
  dsimp only
  split
  · unfold joinByCount
    cases hsource : s.image.sourceRole with
    | true => exact .inr ⟨_, enterMember_capture _ _ _ (s.setStation { s.station with joinCount := s.station.joinCount + 1 }) hsource⟩
    | false =>
      have w := entering_writes (joiningFrame (s.setStation { s.station with joinCount := s.station.joinCount + 1 })).1
        (joiningFrame (s.setStation { s.station with joinCount := s.station.joinCount + 1 })).2 0
        (s.setStation { s.station with joinCount := s.station.joinCount + 1 })
      rw [enterMember_eq]
      refine .inl ((notice_writes_of_not_source .join _ false false ?_ .capture (by decide)).trans (w .capture (by decide)))
      rw [image_of_writes w (by decide)]
      exact hsource
  · exact .inl rfl

theorem arrive_relocked {c : RoundContent} {a : RoundArrival} (h : a ≠ .silence) (s : State) : Relocked s (arrive c s a) := by
  cases a with
  | number => exact .inl rfl
  | ageing => exact .of_writes (tableRoundStart_writes s)
  | silence => exact absurd rfl h
  | waits =>
    unfold arrive
    dsimp only
    split
    · exact .of_writes (requesterRoundStart_writes s)
    · exact .inl rfl
  | settle => exact settleRoundStart_relocked c s

/-- The round start at which the loss is due leaves the input LOST, whatever it carries and whatever the order (R86). -/
theorem roundStart_input_lost (h : inputLossDue s = true) (c : RoundContent) (o : Orders) :
    (roundStart c o s).capture.input = .lost := by
  obtain ⟨hsource, hlive, hlimit⟩ := inputLossDue_iff.1 h
  have harrivals : (roundArrivals c o s).capture.input = .lost := by
    refine roundArrivals_passes (a₀ := .silence)
      (P := fun u => u.capture.input = .live ∧ u.capture.silence = s.capture.silence)
      (Q := fun u => u.capture.input = .lost) (fun u a ha _ hu => ?_) (fun u a ha _ hu => ?_) (fun u w hu => ?_) ⟨hlive, rfl⟩
    · obtain ⟨hinput, hsilence⟩ := (arrive_relocked (c := c) ha u).input
      exact ⟨hinput.trans hu.1, hsilence.trans hu.2⟩
    · exact (arrive_relocked (c := c) ha u).input.1.trans hu
    · refine captureRoundStart_lost (inputLossDue_iff.2 ?_)
      rw [image_of_writes w (by decide), hu.2]
      exact ⟨hsource, hu.1, hlimit⟩
  rw [roundStart_eq]
  split
  · exact (countJoin_relocked _).input.1.trans harrivals
  · exact harrivals

/-! ## A round start that makes no settle -/

theorem arrive_of_quiet_not_silence {c : RoundContent} {a : RoundArrival} (h : c.Quiet s) (ha : a ≠ .silence) :
    OnlyWrites [.roundTimer, .settle, .members, .requester, .port] s (arrive c s a) := by
  cases a with
  | number => exact (numberRoundStart_writes c s).widen (by decide)
  | ageing => exact (tableRoundStart_writes s).widen (by decide)
  | silence => exact absurd rfl ha
  | waits =>
    unfold arrive
    dsimp only
    split
    · exact (requesterRoundStart_writes s).widen (by decide)
    · exact .refl
  | settle => exact (settleRoundStart_of_quiet h).1.widen (by decide)

theorem quiet_of_arrive {c : RoundContent} {s : State} (h : c.Quiet s) (a : RoundArrival) : c.Quiet (arrive c s a) := by
  obtain ⟨w, hframe⟩ := arrive_of_quiet h a
  exact quiet_of_same h (isMember_of_writes w (by decide)) hframe

/-- Before the arrival at the capture unit: what it will find is what stood at the round start. -/
structure BeforeSilence (s : State) (c : RoundContent) (u : State) : Prop where
  quiet : c.Quiet u
  capture : u.capture = s.capture
  ring : u.ring = s.ring
  queue : u.publishQueue = s.publishQueue
  frame : u.settle.frame = s.settle.frame
  fill : u.counter .fillPieces = s.counter .fillPieces
  length : u.port.counters.length = s.port.counters.length

/-- After the arrival at the capture unit of a round start that makes no settle and loses the input of `s` (R86, R92, R93). -/
structure AfterSilence (s : State) (c : RoundContent) (u : State) : Prop where
  quiet : c.Quiet u
  told : u.port.events.length < 32 → ∃ r, (r = s.roundTimer.number ∨ r = c.roundNumber s.roundTimer.number) ∧
    ⟨.inputLost, r, s.settle.frame + 1, if s.capture.state = .capturing then 1 else 0⟩ ∈ u.port.events
  idle : s.capture.state ≠ .capturing →
    u.capture = { s.capture with input := .lost, silence := min 255 (s.capture.silence + 1) } ∧ u.ring = s.ring ∧
      u.publishQueue = s.publishQueue
  cut : s.capture.state = .capturing →
    u.capture.state = .holding ∧ u.capture.disposition = .skipped ∧ u.capture.offer = s.capture.offer ∧
      (u.capture.published = true ↔ s.capture.published = true ∨ (s.capture.offer ≠ none ∧ u.publishQueue = [])) ∧
      u.capture.rowCount = s.capture.rowCount + ((ownEntry s).height - s.capture.rowCount) ∧
      (s.port.counters.length = 22 → s.counter .fillPieces ≤ 65535 → u.counter .fillPieces =
        min 65535 (s.counter .fillPieces + ((ownEntry s).height - s.capture.rowCount) * (ownEntry s).pieces))

theorem mem_events_of_post {k : EventKind} {f : Frame} {d : Byte} (h : (post k f d s).port.events.length < 32) :
    ⟨k, s.roundTimer.number, f, d⟩ ∈ (post k f d s).port.events := by
  rcases post_record k f d s with ⟨-, -, hevents⟩ | ⟨hfull, hevents, -⟩
  · rw [hevents]
    exact List.mem_append_right _ (List.mem_singleton_self _)
  · rw [hevents] at h
    exact absurd h (Nat.not_lt.2 hfull)

/-- No other arrival of a round start than that at the capture unit counts a filled-up piece. -/
theorem fillPieces_not_arrivalCounters {a : RoundArrival} (h : a ≠ .silence) : Counter.fillPieces ∉ arrivalCounters a := by
  cases a with
  | silence => exact absurd rfl h
  | number => exact List.not_mem_nil
  | ageing => exact List.not_mem_nil
  | waits => exact List.not_mem_nil
  | settle => exact (by decide : Counter.fillPieces ∉ settleCounters)

theorem BeforeSilence.arrive {c : RoundContent} {u : State} {a : RoundArrival} (h : BeforeSilence s c u) (ha : a ≠ .silence) :
    BeforeSilence s c (arrive c u a) := by
  have w := arrive_of_quiet_not_silence h.quiet ha
  have hreports := arrive_reports c u a
  exact ⟨quiet_of_arrive h.quiet a, (w .capture (by decide)).trans h.capture, (w .ring (by decide)).trans h.ring,
    (w .publishQueue (by decide)).trans h.queue, (arrive_of_quiet h.quiet a).2.trans h.frame,
    (hreports.counters _ (fillPieces_not_arrivalCounters ha)).trans h.fill, hreports.length.trans h.length⟩

theorem AfterSilence.arrive {c : RoundContent} {u : State} {a : RoundArrival} (h : AfterSilence s c u) (ha : a ≠ .silence) :
    AfterSilence s c (arrive c u a) := by
  have w := arrive_of_quiet_not_silence h.quiet ha
  have hreports := arrive_reports c u a
  have hcapture : (Machine.arrive c u a).capture = u.capture := w .capture (by decide)
  have hring : (Machine.arrive c u a).ring = u.ring := w .ring (by decide)
  have hqueue : (Machine.arrive c u a).publishQueue = u.publishQueue := w .publishQueue (by decide)
  have hfill := hreports.counters _ (fillPieces_not_arrivalCounters ha)
  refine ⟨quiet_of_arrive h.quiet a, fun hroom => ?_, ?_, ?_⟩
  · obtain ⟨r, hr, hmem⟩ := h.told (Nat.lt_of_le_of_lt hreports.events.length_le hroom)
    exact ⟨r, hr, hreports.events.subset hmem⟩
  · rw [hcapture, hring, hqueue]
    exact h.idle
  · rw [hcapture, hqueue, hfill]
    exact h.cut

/-- The round number before or after its arrival. -/
theorem arrivals_number (c : RoundContent) {l : List RoundArrival} (hl : l.Nodup) (s : State) :
    (l.foldl (arrive c) s).roundTimer.number = s.roundTimer.number ∨
      (l.foldl (arrive c) s).roundTimer.number = c.roundNumber s.roundTimer.number := by
  have hother (n : RoundNo) (u : State) (a : RoundArrival) (ha : a ≠ .number) (hu : u.roundTimer.number = n) :
      (arrive c u a).roundTimer.number = n := by
    rw [arrive_roundTimer ha, hu]
  by_cases hmem : RoundArrival.number ∈ l
  · refine .inr (foldl_passes (a₀ := .number) (P := fun u => u.roundTimer.number = s.roundTimer.number)
      (Q := fun u => u.roundTimer.number = c.roundNumber s.roundTimer.number) (hother _) (hother _) (fun u hu => ?_) hl hmem s rfl)
    rw [← hu]
    exact congrArg RoundTimer.number (numberRoundStart_roundTimer c u)
  · exact .inl (List.foldlRecOn l (arrive c) (motive := fun u => u.roundTimer.number = s.roundTimer.number) rfl
      fun u hu a ha => hother _ u a (fun h => hmem (h ▸ ha)) hu)

theorem BeforeSilence.silence {c : RoundContent} {u : State} (h : BeforeSilence s c u) (hdue : inputLossDue u = true)
    (hnumber : u.roundTimer.number = s.roundTimer.number ∨ u.roundTimer.number = c.roundNumber s.roundTimer.number)
    (himage : u.image = s.image) : AfterSilence s c (captureRoundStart u) := by
  have hentry : ownEntry u = ownEntry s := by rw [ownEntry, ownEntry, himage]
  have htold (v : State) (d : Byte) (hv : v.roundTimer = u.roundTimer)
      (hroom : (post .inputLost u.openFrame d v).port.events.length < 32) :
      ∃ r, (r = s.roundTimer.number ∨ r = c.roundNumber s.roundTimer.number) ∧
        ⟨.inputLost, r, s.settle.frame + 1, d⟩ ∈ (post .inputLost u.openFrame d v).port.events := by
    refine ⟨u.roundTimer.number, hnumber, ?_⟩
    rw [← h.frame, ← hv]
    exact mem_events_of_post hroom
  have hquiet : c.Quiet (captureRoundStart u) := quiet_of_arrive h.quiet .silence
  by_cases hc : s.capture.state = .capturing
  · rw [captureRoundStart_capturing hdue (by rw [h.capture]; exact hc)] at hquiet ⊢
    have hcapture := cutByLoss_capture u
    have hfill := cutByLoss_counter (s := u)
    refine ⟨hquiet, fun hroom => ?_, fun hn => absurd hc hn, fun _ => ⟨?_, ?_, ?_, ?_, ?_, fun hlength hbound => ?_⟩⟩
    · rw [checkPublished_port] at hroom ⊢
      rw [if_pos hc]
      refine htold _ _ ?_ hroom
      exact endCaptureWithFill_writes _ .roundTimer (by decide)
    · rw [checkPublished_capture, hcapture]
    · rw [checkPublished_capture, hcapture]
    · rw [checkPublished_capture, hcapture, h.capture]
    · rw [checkPublished_flag, checkPublished_queue, hcapture, h.capture]
      simp only [true_and]
    · rw [checkPublished_capture, hcapture, h.capture, hentry]
    · rw [State.counter, checkPublished_port]
      refine (hfill (h.length.trans hlength) (h.fill.le.trans hbound)).trans ?_
      rw [h.fill, h.capture, hentry]
  · rw [captureRoundStart_idle hdue (by rw [h.capture]; exact hc)] at hquiet ⊢
    have w := post_writes .inputLost u.openFrame 0 (lostFrom u)
    refine ⟨hquiet, fun hroom => ?_, fun _ => ⟨?_, ?_, ?_⟩, fun hn => absurd hn hc⟩
    · rw [if_neg hc]
      exact htold _ _ rfl hroom
    · rw [w .capture (by decide), ← h.capture]
      rfl
    · rw [w .ring (by decide), ← h.ring]
      rfl
    · rw [w .publishQueue (by decide), ← h.queue]
      rfl

/-- All arrivals of a round start that makes no settle and at which the loss of the input is due. -/
theorem roundArrivals_silence {c : RoundContent} (hquiet : c.Quiet s) (hdue : inputLossDue s = true) (o : Orders) :
    AfterSilence s c (roundArrivals c o s) := by
  obtain ⟨hnodup, hall⟩ := roundOrder_once o
  obtain ⟨l₁, l₂, hsplit⟩ := List.append_of_mem (hall .silence)
  have harrivals : roundArrivals c o s =
      l₂.foldl (arrive c) (captureRoundStart (l₁.foldl (arrive c) (restartMarkTimer s))) := by
    rw [roundArrivals, hsplit, List.foldl_append]
    rfl
  rw [hsplit, List.nodup_middle, List.nodup_cons, List.mem_append, not_or] at hnodup
  obtain ⟨⟨h₁, h₂⟩, hnodup⟩ := hnodup
  have hbefore : BeforeSilence s c (l₁.foldl (arrive c) (restartMarkTimer s)) ∧
      OnlyWrites roundFields s (l₁.foldl (arrive c) (restartMarkTimer s)) :=
    List.foldlRecOn l₁ (arrive c) (motive := fun u => BeforeSilence s c u ∧ OnlyWrites roundFields s u)
      ⟨⟨hquiet, rfl, rfl, rfl, rfl, rfl, rfl⟩, (restartMarkTimer_writes s).widen (by decide)⟩
      fun u hu a ha => ⟨hu.1.arrive (fun h => h₁ (h ▸ ha)), .followedBy hu.2 (arrive_writes c u a) (by decide)⟩
  have hnumber := arrivals_number c (List.nodup_append.1 hnodup).1 (restartMarkTimer s)
  have himage := image_of_writes hbefore.2 (by decide)
  rw [harrivals]
  refine List.foldlRecOn l₂ (arrive c) (motive := AfterSilence s c) (hbefore.1.silence ?_ hnumber himage)
    fun u hu a ha => hu.arrive (fun h => h₂ (h ▸ ha))
  rw [inputLossDue_iff, himage, hbefore.1.capture]
  exact inputLossDue_iff.1 hdue

end

/-! ## The command (R86) -/

theorem execInputLost_eq (s : State) (heard : List Byte) (o : Orders) : exec (.inputLost heard o) s =
    .next (if roundStartComes s heard && inputLossDue s then takeBurst heard o s else s) := rfl

theorem quiet_of_makesNoSettle {s u : State} {j : Judgment} (h : MakesNoSettle s j) (hm : u.isMember = s.isMember)
    (hframe : u.settle.frame = s.settle.frame) : (roundContent none j).Quiet u := by
  rcases h with h | h | ⟨k, m, rfl, h⟩
  · have hu : u.isMember = false := hm.trans h
    generalize roundContent none j = c
    cases c with
    | nothing => trivial
    | received k m => exact .inl hu
    | own m verdict => exact .inl hu
  · rw [roundContent_of_discarded h]
    trivial
  · refine .inr ?_
    rw [hframe]
    exact h

theorem countJudgment_reports (j : Judgment) (s : State) :
    Reports [.checkFailures, .misplacedBursts] s (countJudgment j s) := by
  cases j with
  | checkFailure => exact (raise_reports _ _ _).widen (by decide)
  | misplaced => exact (raise_reports _ _ _).widen (by decide)
  | malformed => exact (raise_reports _ _ _).widen (by decide)
  | valid b => exact .refl

/-- After all arrivals, a round start only adds to the event queue. -/
theorem roundStart_after_arrivals (c : RoundContent) (o : Orders) (s : State) :
    (roundArrivals c o s).port.events <+: (roundStart c o s).port.events ∧
      (roundStart c o s).roundTimer.number = c.roundNumber s.roundTimer.number := by
  have htimer := congrArg RoundTimer.number (roundArrivals_roundTimer c o s)
  rw [roundStart_eq]
  split
  · refine ⟨(countJoin_reports _).events, ?_⟩
    rw [countJoin_writes _ .roundTimer (by decide)]
    exact htimer
  · exact ⟨List.prefix_rfl, htimer⟩

/-- Settles O46. -/
theorem silentInputIsLost : Obligations.SilentInputIsLost := by
  refine ⟨fun s heard o j h hsource hlive hlimit => ?_, fun u c hm hsource hlive hlimit hc => ?_, fun s heard o h => ?_⟩
  · have hdue : inputLossDue s = true := inputLossDue_iff.2 ⟨hsource, hlive, hlimit⟩
    have hcommand : exec (.inputLost heard o) s = exec (.burstTaken heard o) s := by
      refine congrArg Host.Outcome.next (if_pos ?_)
      rw [roundStartComes_of_hears h, hdue]
      rfl
    have hexec := burstTaken_round h o
    have wu := countJudgment_same j s
    have hreports := countJudgment_reports j (afterBurst s)
    generalize countJudgment j (afterBurst s) = u at hexec wu hreports
    have himage : u.image = s.image := image_of_writes wu (by decide)
    have hcapture : u.capture = s.capture := wu .capture (by decide)
    have hring : u.ring = s.ring := wu .ring (by decide)
    have hqueue : u.publishQueue = s.publishQueue := wu .publishQueue (by decide)
    have hsettle : u.settle = s.settle := wu .settle (by decide)
    have htimer : u.roundTimer = s.roundTimer := wu .roundTimer (by decide)
    have hmember : u.isMember = s.isMember := isMember_of_writes wu (by decide)
    have hentry : ownEntry u = ownEntry s := by rw [ownEntry, ownEntry, himage]
    have hfill : u.counter .fillPieces = s.counter .fillPieces := hreports.counters _ (by decide)
    have hdue' : inputLossDue u = true := by
      rw [inputLossDue_iff, himage, hcapture]
      exact ⟨hsource, hlive, hlimit⟩
    have hafter (hquiet : MakesNoSettle s j) : AfterSilence u (roundContent none j) (roundArrivals (roundContent none j) o u) :=
      roundArrivals_silence (quiet_of_makesNoSettle hquiet hmember (congrArg Settle.frame hsettle)) hdue' o
    refine ⟨_, hcommand.trans hexec, hexec, roundStart_input_lost hdue' _ o, fun hquiet hroom => ?_, fun hm hquiet hc => ?_,
      fun hm hquiet hc => ?_⟩
    · obtain ⟨hevents, hnumber⟩ := roundStart_after_arrivals (roundContent none j) o u
      obtain ⟨r, hr, htold⟩ := (hafter hquiet).told (Nat.lt_of_le_of_lt hevents.length_le hroom)
      rw [hsettle, hcapture] at htold
      rw [← hnumber, htimer] at hr
      exact ⟨r, hr, hevents.subset htold⟩
    · rw [roundStart_of_member (hmember.trans hm), ← hcapture, ← hring, ← hqueue]
      exact (hafter hquiet).idle (by rw [hcapture]; exact hc)
    · rw [roundStart_of_member (hmember.trans hm)]
      obtain ⟨hstate, hdisposition, hoffer, hpublished, hrows, hpieces⟩ := (hafter hquiet).cut (by rw [hcapture]; exact hc)
      rw [hcapture] at hoffer hpublished hrows hpieces
      rw [hentry] at hrows hpieces
      refine ⟨hstate, hdisposition, hoffer, hpublished, fun hle => ?_, fun hcap => ?_⟩
      · rw [hrows, Nat.add_sub_cancel' hle]
      · rw [hpieces (hreports.length.trans hcap.counters.1) (hfill.le.trans (counter_le hcap _)), hfill]
  · rw [show arrive c u .silence = captureRoundStart u from rfl,
      captureRoundStart_capturing (inputLossDue_iff.2 ⟨hsource, hlive, hlimit⟩) hc]
    exact cutByLoss_tests hm
  · rw [execInputLost_eq, if_neg]
    rw [Bool.and_eq_true, inputLossDue_iff]
    rintro ⟨hcomes, hsource, hlive, hlimit⟩
    rcases h with h | h | h | h
    · rw [roundStartComes_of_quiet h] at hcomes
      exact Bool.false_ne_true hcomes
    · exact Bool.false_ne_true (h.symm.trans hsource)
    · exact absurd (h.symm.trans hlive) (by decide)
    · exact absurd hlimit (Nat.not_le.2 h)

end Sys2Proof.Machine
end

section
/-! Entries of the repair list at a round start: waits, back-offs, re-sends and the third time-out. -/

namespace Sys2Proof.Machine

/-! ## What reaches the entries with one tag -/

/-- From `l` to `l'` the entries with this tag stay; what comes under it is an entry composed anew. -/
structure KeepsTag (tag : Nat) (l l' : List RepairEntry) : Prop where
  stays : ∀ x ∈ l, x.tag = tag → x ∈ l'
  fresh : ∀ x ∈ l', x.tag = tag → x ∈ l ∨ (x.state = .composed ∧ x.attempts = 1)

section
variable {s t : State} {tag : Nat}

theorem KeepsTag.refl {l : List RepairEntry} : KeepsTag tag l l := ⟨fun _ hx _ => hx, fun _ hx _ => .inl hx⟩

theorem KeepsTag.trans {l₁ l₂ l₃ : List RepairEntry} (h : KeepsTag tag l₁ l₂) (h' : KeepsTag tag l₂ l₃) : KeepsTag tag l₁ l₃ :=
  ⟨fun x hx ht => h'.stays x (h.stays x hx ht) ht, fun x hx ht => (h'.fresh x hx ht).elim (fun hy => h.fresh x hy ht) .inr⟩

theorem KeepsTag.of_writes {fs : List Field} (w : OnlyWrites fs s t) (h : Field.requester ∉ fs := by decide) :
    KeepsTag tag s.requester.entries t.requester.entries := by
  rw [show t.requester = s.requester from w .requester h]
  exact .refl

theorem gapScan_keepsTag (s : State) : KeepsTag tag s.requester.entries (gapScan s).requester.entries :=
  ⟨fun _ hx _ => (gapScan_keeps s).1.subset hx, fun x hx _ => gapScan_fresh s x hx⟩

theorem ownPublished_keepsTag (s : State) : KeepsTag tag s.requester.entries (ownPublished s).requester.entries := by
  unfold ownPublished markPublished
  split
  · exact gapScan_keepsTag (s.setRequester { s.requester with published := s.requester.published.set (ownStreamId s) true })
  · exact gapScan_keepsTag s

theorem checkPublished_keepsTag (s : State) : KeepsTag tag s.requester.entries (checkPublished s).requester.entries := by
  unfold checkPublished
  split
  · dsimp only
    split
    · exact ownPublished_keepsTag (s.setCapture { s.capture with published := true })
    · exact .refl
  · exact .refl

/-- The capture unit reaches the repair list through the published flag only (R94, R137). -/
theorem captureRoundStart_keepsTag (s : State) : KeepsTag tag s.requester.entries (captureRoundStart s).requester.entries := by
  by_cases hdue : inputLossDue s = true
  · by_cases hc : s.capture.state = .capturing
    · rw [captureRoundStart_capturing hdue hc]
      exact KeepsTag.trans (.of_writes (cutByLoss_writes s)) (checkPublished_keepsTag _)
    · rw [captureRoundStart_idle hdue hc]
      exact .of_writes (s := lostFrom s) (post_writes .inputLost s.openFrame 0 (lostFrom s))
  · unfold captureRoundStart
    dsimp only
    rw [if_neg hdue]
    split <;> exact .refl

theorem mem_changeEntry {e : RepairEntry} (f : RepairEntry → RepairEntry) (h : e ∈ s.requester.entries) :
    f e ∈ (changeEntry e.tag f s).requester.entries :=
  List.mem_map.2 ⟨e, h, if_pos rfl⟩

theorem changeEntry_keepsTag {tag' : Nat} (f : RepairEntry → RepairEntry) (hf : ∀ e, (f e).tag = e.tag) (h : tag ≠ tag')
    (s : State) : KeepsTag tag s.requester.entries (changeEntry tag' f s).requester.entries := by
  rw [changeEntry_entries]
  refine ⟨fun x hx ht => List.mem_map.2 ⟨x, hx, if_neg (ht ▸ h)⟩, fun x hx ht => ?_⟩
  obtain ⟨y, hy, rfl⟩ := List.mem_map.1 hx
  split at ht
  next hy' => exact absurd (((hf y).symm.trans ht).symm.trans hy') h
  next hy' =>
    rw [if_neg hy']
    exact .inl hy

theorem closeEntry_keepsTag {e : RepairEntry} (c : ConditionCode) (h : tag ≠ e.tag) (s : State) :
    KeepsTag tag s.requester.entries (closeEntry c e s).requester.entries := by
  refine ⟨fun x hx ht => (closeEntry_keeps c e s).1.subset (List.mem_filter.2 ⟨hx, ?_⟩), fun x hx _ => ?_⟩
  · rw [bne_iff_ne, ht]
    exact h
  · rw [closeEntry_requester] at hx
    exact (gapScan_fresh _ x hx).imp (fun hy => List.mem_of_mem_filter hy) id

/-- A round start at one entry, for entries with another tag. -/
theorem ageEntry_keepsTag {e : RepairEntry} (h : tag ≠ e.tag) (s : State) :
    KeepsTag tag s.requester.entries (ageEntry e s).requester.entries := by
  unfold ageEntry
  split
  · exact .refl
  split
  · split
    · exact changeEntry_keepsTag RepairEntry.recomposed (fun _ => rfl) h s
    · exact changeEntry_keepsTag (fun e => { e with backoff := e.backoff - 1 }) (fun _ => rfl) h s
  split
  · split
    · exact changeEntry_keepsTag RepairEntry.recomposed (fun _ => rfl) h s
    · exact closeEntry_keepsTag _ h s
  · exact changeEntry_keepsTag (fun e => { e with wait := e.wait + 1 }) (fun _ => rfl) h s

end

/-! ## One entry at a round start (R142, R146, R147, R148) -/

/-- What a round start at the repair requester makes of the entry `e` of the repair list. -/
structure AgedInto (e : RepairEntry) (l : List RepairEntry) : Prop where
  composed : e.state = .composed → e ∈ l
  backoffEnd : e.state = .sent → e.backoff = 1 →
    { e with state := .composed, attempts := e.attempts + 1, wait := 0, backoff := 0 } ∈ l
  backoff : e.state = .sent → 2 ≤ e.backoff → { e with backoff := e.backoff - 1 } ∈ l
  wait : e.state = .sent → e.backoff = 0 → e.wait < 5 → { e with wait := e.wait + 1 } ∈ l
  timeout : e.state = .sent → e.backoff = 0 → e.wait = 5 → e.attempts < 3 →
    { e with state := .composed, attempts := e.attempts + 1, wait := 0 } ∈ l
  closed : e.state = .sent → e.backoff = 0 → e.wait = 5 → e.attempts = 3 →
    ∀ x ∈ l, x.tag = e.tag → x.state = .composed ∧ x.attempts = 1

theorem AgedInto.kept {e : RepairEntry} {l l' : List RepairEntry} (h : AgedInto e l) (k : KeepsTag e.tag l l') : AgedInto e l' where
  composed hs := k.stays _ (h.composed hs) rfl
  backoffEnd hs hb := k.stays _ (h.backoffEnd hs hb) rfl
  backoff hs hb := k.stays _ (h.backoff hs hb) rfl
  wait hs hb hw := k.stays _ (h.wait hs hb hw) rfl
  timeout hs hb hw ha := k.stays _ (h.timeout hs hb hw ha) rfl
  closed hs hb hw ha x hx ht := (k.fresh x hx ht).elim (fun hy => h.closed hs hb hw ha x hy ht) id

section
variable {s : State} {e : RepairEntry}

theorem timesOut_iff : e.timesOut = true ↔ e.state = .sent ∧ e.backoff = 0 ∧ 5 ≤ e.wait := by
  rw [RepairEntry.timesOut, Bool.and_eq_true, Bool.and_eq_true, beq_iff_eq, beq_iff_eq, decide_eq_true_iff, and_assoc]
  exact and_congr_right fun _ => and_congr_right fun _ => Nat.succ_le_succ_iff

theorem ageEntry_agedInto (h : e ∈ s.requester.entries) : AgedInto e (ageEntry e s).requester.entries where
  composed hs := by
    rw [ageEntry_of_composed (by rw [hs]; decide)]
    exact h
  backoffEnd hs hb := by
    rw [ageEntry_of_backoff_one hs hb]
    exact mem_changeEntry RepairEntry.recomposed h
  backoff hs hb := by
    rw [ageEntry_of_backoff hs hb]
    exact mem_changeEntry (fun e => { e with backoff := e.backoff - 1 }) h
  wait hs hb hw := by
    rw [ageEntry_of_wait hs hb hw]
    exact mem_changeEntry (fun e => { e with wait := e.wait + 1 }) h
  timeout hs hb hw ha := by
    rw [ageEntry_of_timeout hs hb hw.ge, if_pos ha]
    have hsame : { e with state := .composed, attempts := e.attempts + 1, wait := 0 } = e.recomposed := by
      rw [RepairEntry.recomposed, ← hb]
    rw [hsame]
    exact mem_changeEntry RepairEntry.recomposed h
  closed hs hb hw ha := by
    rw [ageEntry_of_timeout hs hb hw.ge, if_neg (by omega)]
    exact closeEntry_leaves .noResponse e s

/-- The entries of the list have distinct tags: each meets the round start as if it were alone. -/
theorem requesterRoundStart_agedInto (hr : RepairListInOrder s.requester) (h : e ∈ s.requester.entries) :
    AgedInto e (requesterRoundStart s).requester.entries := by
  have htags := hr.tags
  obtain ⟨l₁, l₂, hsplit⟩ := List.append_of_mem h
  rw [hsplit, List.map_append, List.map_cons, List.nodup_middle, List.nodup_cons, ← List.map_append] at htags
  have hother {x : RepairEntry} (hx : x ∈ l₁ ++ l₂) : e.tag ≠ x.tag := fun heq => htags.1 (heq ▸ List.mem_map_of_mem hx)
  have hbefore : KeepsTag e.tag s.requester.entries (l₁.foldl (fun s e => ageEntry e s) s).requester.entries :=
    List.foldlRecOn l₁ _ (motive := fun u => KeepsTag e.tag s.requester.entries u.requester.entries) .refl
      fun u hu x hx => hu.trans (ageEntry_keepsTag (hother (List.mem_append_left _ hx)) u)
  rw [requesterRoundStart, hsplit, List.foldl_append]
  exact List.foldlRecOn l₂ _ (motive := fun u => AgedInto e u.requester.entries)
    (ageEntry_agedInto (hbefore.stays e h rfl))
    fun u hu x hx => hu.kept (ageEntry_keepsTag (hother (List.mem_append_right _ hx)) u)

end

/-! ## The arrivals of a round start that makes no settle -/

theorem arrive_keepsTag {c : RoundContent} {a : RoundArrival} {s : State} {tag : Nat} (h : c.Quiet s) (ha : a ≠ .waits) :
    KeepsTag tag s.requester.entries (arrive c s a).requester.entries := by
  cases a with
  | number => exact .of_writes (numberRoundStart_writes c s)
  | ageing => exact .of_writes (tableRoundStart_writes s)
  | silence => exact captureRoundStart_keepsTag s
  | waits => exact absurd rfl ha
  | settle => exact .of_writes (settleRoundStart_of_quiet h).1

theorem roundArrivals_agedInto {s : State} {c : RoundContent} {e : RepairEntry} (hm : s.isMember = true)
    (hsink : s.image.sinkRole = true) (hquiet : c.Quiet s) (hr : RepairListInOrder s.requester) (h : e ∈ s.requester.entries)
    (o : Orders) : AgedInto e (roundArrivals c o s).requester.entries := by
  refine (roundArrivals_passes (a₀ := .waits)
    (P := fun u => c.Quiet u ∧ RepairListInOrder u.requester ∧ e ∈ u.requester.entries)
    (Q := fun u => c.Quiet u ∧ AgedInto e u.requester.entries)
    (fun u a ha _ hu => ?_) (fun u a ha _ hu => ?_) (fun u w hu => ?_) ⟨hquiet, hr, h⟩).2
  · obtain ⟨hq, hlist, hmem⟩ := hu
    exact ⟨quiet_of_arrive hq a, (arrive_works c u a).repair hlist, (arrive_keepsTag hq ha).stays e hmem rfl⟩
  · exact ⟨quiet_of_arrive hu.1 a, hu.2.kept (arrive_keepsTag hu.1 ha)⟩
  · obtain ⟨hq, hlist, hmem⟩ := hu
    refine ⟨quiet_of_arrive hq .waits, ?_⟩
    have hacts : u.actsAsSink = true := by
      rw [State.actsAsSink, isMember_of_writes w (by decide), image_of_writes w (by decide), hm, hsink]
      rfl
    rw [show arrive c u .waits = requesterRoundStart u from if_pos hacts]
    exact requesterRoundStart_agedInto hlist hmem

/-! ## The commands (R146, R147) -/

theorem execBackoffEnd_eq (s : State) (heard : List Byte) (o : Orders) : exec (.backoffEnd heard o) s =
    .next (if roundStartComes s heard && backoffDue s then takeBurst heard o s else s) := rfl

theorem execRepairTimeout_eq (s : State) (heard : List Byte) (o : Orders) : exec (.repairTimeout heard o) s =
    .next (if roundStartComes s heard && timeoutDue s then takeBurst heard o s else s) := rfl

theorem backoffDue_iff {s : State} : backoffDue s = true ↔ s.isMember = true ∧ s.image.sinkRole = true ∧
    ∃ e ∈ s.requester.entries, e.state = .sent ∧ e.backoff = 1 := by
  simp only [backoffDue, State.actsAsSink, Bool.and_eq_true, List.any_eq_true, RepairEntry.backoffEnds, beq_iff_eq, and_assoc]

theorem timeoutDue_iff {s : State} : timeoutDue s = true ↔ s.isMember = true ∧ s.image.sinkRole = true ∧
    ∃ e ∈ s.requester.entries, e.state = .sent ∧ e.backoff = 0 ∧ 5 ≤ e.wait := by
  simp only [timeoutDue, State.actsAsSink, Bool.and_eq_true, List.any_eq_true, timesOut_iff, and_assoc]

/-- Settles O47. -/
theorem waitsAndBackoffsEnd : Obligations.WaitsAndBackoffsEnd := by
  refine ⟨fun s heard o j hm hsink h hquiet hlist => ?_, fun s e => (closeEntry_keeps .noResponse e s).2.2,
    fun s heard o h => ?_, fun s heard o h => ?_⟩
  · have hexec := burstTaken_round h o
    have wu := countJudgment_same j s
    generalize countJudgment j (afterBurst s) = u at hexec wu
    have hmember : u.isMember = true := (isMember_of_writes wu (by decide)).trans hm
    have himage : u.image = s.image := image_of_writes wu (by decide)
    have hrequester : u.requester = s.requester := wu .requester (by decide)
    have hq : (roundContent none j).Quiet u := quiet_of_makesNoSettle hquiet (isMember_of_writes wu (by decide))
      (congrArg Settle.frame (wu .settle (by decide)))
    rw [roundStart_of_member hmember] at hexec
    refine ⟨_, hexec, fun hdue => ?_, fun hdue => ?_, fun e he => ?_⟩
    · rw [execBackoffEnd_eq, roundStartComes_of_hears h, backoffDue_iff.2 ⟨hm, hsink, hdue⟩]
      exact hexec
    · obtain ⟨e, he, hsent, hbackoff, hwait⟩ := hdue
      rw [execRepairTimeout_eq, roundStartComes_of_hears h, timeoutDue_iff.2 ⟨hm, hsink, e, he, hsent, hbackoff, hwait.ge⟩]
      exact hexec
    · obtain ⟨hcomposed, hend, hdown, hwait, htimeout, hclosed⟩ := roundArrivals_agedInto hmember (by rw [himage]; exact hsink) hq
        (by rw [hrequester]; exact hlist) (by rw [hrequester]; exact he) o
      exact ⟨hcomposed, hend, hdown, hwait, htimeout, hclosed⟩
  · rw [execBackoffEnd_eq, if_neg]
    rw [Bool.and_eq_true, backoffDue_iff]
    rintro ⟨hcomes, hm, hsink, e, he, hsent, hbackoff⟩
    rcases h with h | h | h
    · rw [roundStartComes_of_quiet h] at hcomes
      exact Bool.false_ne_true hcomes
    · exact Bool.false_ne_true (h.symm.trans hm)
    · exact h e he hsent hbackoff
  · rw [execRepairTimeout_eq, if_neg]
    rw [Bool.and_eq_true, timeoutDue_iff]
    rintro ⟨hcomes, hm, hsink, e, he, hsent, hbackoff, hwait⟩
    rcases h with h | h | h
    · rw [roundStartComes_of_quiet h] at hcomes
      exact Bool.false_ne_true hcomes
    · exact Bool.false_ne_true (h.symm.trans hm)
    · exact (h e he hsent).elim (fun hlt => absurd hbackoff hlt.ne') (fun hlt => absurd hwait (Nat.not_le.2 hlt))

end Sys2Proof.Machine
end

section
/-! A STATUS at the repair requester: set aside, an orphan, or the end or back-off of its entry. -/

namespace Sys2Proof.Machine

/-! ## The entry a STATUS matches (R144) -/

section
variable {s : State} {e : RepairEntry} {k : Nat} {m : StatusFields}

theorem statusMatches_iff : statusMatches s k m e = true ↔ e.tag = m.tag ∧ e.frame = m.frame ∧
    (s.image.stream e.stream).publisher = k ∧ (e.state = .sent ∨ (e.state = .composed ∧ 2 ≤ e.attempts)) := by
  simp only [statusMatches, Bool.and_eq_true, Bool.or_eq_true, beq_iff_eq, decide_eq_true_iff, and_assoc]

theorem takeStatus_elsewhere (h : m.requester ≠ s.image.stationNumber) : takeStatus k m s = s := if_pos h

theorem takeStatus_orphan (h : m.requester = s.image.stationNumber)
    (hnone : ∀ e ∈ s.requester.entries, ¬ statusMatches s k m e = true) : takeStatus k m s = raise .orphanStatuses 1 s := by
  rw [takeStatus, if_neg (not_not_intro h), List.find?_eq_none.2 hnone]

/-- What a STATUS makes of the entry it matches (R145, R146). -/
def answerEntry (oc : Outcome) (e : RepairEntry) (s : State) : State :=
  match oc with
  | .delivered => closeEntry .delivered e s
  | .partly => closeEntry .partly e s
  | .gone => closeEntry .gone e s
  | .malformed => closeEntry .malformed e s
  | .refused => takeRefusal e s

theorem takeStatus_match (h : m.requester = s.image.stationNumber) (he : e ∈ s.requester.entries)
    (hmatch : statusMatches s k m e = true) (htags : (s.requester.entries.map (·.tag)).Nodup) :
    takeStatus k m s = answerEntry m.outcome e s := by
  have hfound : s.requester.entries.find? (statusMatches s k m) = some e := by
    refine find?_by_tag _ _ _ he hmatch htags fun x hx => ?_
    rw [(statusMatches_iff.1 hx).1, (statusMatches_iff.1 hmatch).1]
  rw [takeStatus, if_neg (not_not_intro h), hfound]
  rfl

theorem takeRefusal_backoff (hsent : e.state = .sent) (hback : e.backoff = 0) (ha : e.attempts < 3) : takeRefusal e s =
    changeEntry e.tag (fun e => { e with backoff := 1 + s.image.stationNumber % 4 }) s := by
  rw [takeRefusal, hsent, hback]
  exact if_pos ha

theorem takeRefusal_close (hsent : e.state = .sent) (hback : e.backoff = 0) (ha : 3 ≤ e.attempts) :
    takeRefusal e s = closeEntry .refused e s := by
  rw [takeRefusal, hsent, hback]
  exact if_neg (Nat.not_lt.2 ha)

theorem takeRefusal_ignored (h : e.state ≠ .sent ∨ e.backoff ≠ 0) : takeRefusal e s = s := by
  refine if_neg ?_
  rw [Bool.and_eq_true, decide_eq_true_iff, decide_eq_true_iff, not_and_or]
  exact h

theorem answerEntry_writes (oc : Outcome) (e : RepairEntry) (s : State) : OnlyWrites [.requester, .port] s (answerEntry oc e s) := by
  cases oc with
  | delivered => exact closeEntry_writes _ _ _
  | partly => exact closeEntry_writes _ _ _
  | gone => exact closeEntry_writes _ _ _
  | malformed => exact closeEntry_writes _ _ _
  | refused => exact takeRefusal_writes e s

end

/-! ## Closing after a burst heard (R148) -/

section
variable {s : State} {e : RepairEntry}

/-- From `s` to `t` the entry `e` leaves the repair list, with these unrepairable marks, and a gap scan follows. -/
structure Closes (e : RepairEntry) (unrepairable : List Bool) (s t : State) : Prop where
  others : s.requester.entries.filter (fun x => x.tag != e.tag) <+: t.requester.entries
  fresh : ∀ x ∈ t.requester.entries, x.tag = e.tag → x.state = .composed ∧ x.attempts = 1
  marks : t.requester.unrepairable = unrepairable
  scanned : t.requester = (gapScan (s.setRequester { s.requester with
    entries := s.requester.entries.filter (fun x => x.tag != e.tag), unrepairable := unrepairable })).requester

theorem closeEntry_closes (code : ConditionCode) (e : RepairEntry) (s : State) : Closes e
    (if code.marksUnrepairable then s.requester.unrepairable.set e.stream true else s.requester.unrepairable) s
    (closeEntry code e (afterBurst s)) := by
  obtain ⟨hothers, hmarks, -⟩ := closeEntry_keeps code e (afterBurst s)
  refine ⟨hothers, closeEntry_leaves code e (afterBurst s), hmarks, ?_⟩
  rw [closeEntry_requester]
  exact gapScan_congr rfl rfl rfl rfl rfl

/-- The closing code of an outcome other than REFUSED. -/
def Outcome.closing : Outcome → ConditionCode
  | .delivered => .delivered
  | .partly => .partly
  | .gone => .gone
  | .malformed => .malformed
  | .refused => .refused

theorem answerEntry_of_not_refused {oc : Outcome} (h : oc ≠ .refused) (e : RepairEntry) (s : State) :
    answerEntry oc e s = closeEntry oc.closing e s := by
  cases oc with
  | refused => exact absurd rfl h
  | delivered => rfl
  | partly => rfl
  | gone => rfl
  | malformed => rfl

theorem marksUnrepairable_code {oc : Outcome} (h : oc ≠ .refused) (a b : List Bool) :
    (if oc.closing.marksUnrepairable then a else b) = if oc = .delivered then b else a := by
  cases oc with
  | refused => exact absurd rfl h
  | delivered => rfl
  | partly => rfl
  | gone => rfl
  | malformed => rfl

theorem closeEntry_port (code : ConditionCode) (e : RepairEntry) (s : State) :
    (closeEntry code e s).port = (postFailure code e s).port := (closeEntry_keeps code e s).2.2

/-- REPAIR FAILED after a burst heard is what it would have been at its start. -/
theorem postFailure_afterBurst {code : ConditionCode} {n : Nat} (h : code.failure = some n) (e : RepairEntry) (s : State) :
    (closeEntry code e (afterBurst s)).port = (post .repairFailed e.frame (toByte (n * 16 + e.stream)) s).port := by
  rw [closeEntry_port, postFailure, h]
  exact post_port_congr _ _ _ rfl rfl

end

/-- Settles O42. -/
theorem statusClosesItsEntry : Obligations.StatusClosesItsEntry := by
  intro s heard o k m hm h
  have hexec := burstTaken_delivered h hm o
  have hdeliver : deliverMember ⟨k, .status m⟩ o (afterBurst s) =
      if s.image.sinkRole then takeStatus k m (afterBurst s) else afterBurst s := rfl
  rw [hdeliver] at hexec
  refine ⟨fun hnot => ?_, fun hsink hrequester isMatch hmatch => ?_⟩
  · rw [hexec]
    rcases hnot with hnot | hnot
    · rw [hnot]
      rfl
    · rw [takeStatus_elsewhere (s := afterBurst s) hnot, ite_self]
  rw [hsink, if_pos rfl] at hexec
  have hmatch' (e : RepairEntry) : isMatch e ↔ statusMatches (afterBurst s) k m e = true := (hmatch e).trans statusMatches_iff.symm
  refine ⟨fun hnone => ?_, fun e he hm' htags => ?_⟩
  · rw [hexec, takeStatus_orphan (s := afterBurst s) hrequester fun e he hme => hnone e he ((hmatch' e).2 hme)]
  rw [takeStatus_match (s := afterBurst s) hrequester he ((hmatch' e).1 hm') htags] at hexec
  have w : OnlyWrites [.bus, .requester, .port] s (answerEntry m.outcome e (afterBurst s)) :=
    .followedBy ((setBus_writes _ _).widen (by decide)) (answerEntry_writes m.outcome e (afterBurst s)) (by decide)
  have hfailure {oc : Outcome} {n : Nat} (hoc : m.outcome = oc) (hnot : oc ≠ .refused) (hn : oc.closing.failure = some n) :
      (answerEntry m.outcome e (afterBurst s)).port = (post .repairFailed e.frame (toByte (n * 16 + e.stream)) s).port := by
    rw [hoc, answerEntry_of_not_refused hnot]
    exact postFailure_afterBurst hn e s
  refine ⟨_, hexec, w, fun hnot => ?_, fun hoc => ?_, fun hoc => hfailure hoc (by decide) rfl, fun hoc => hfailure hoc (by decide) rfl,
    fun hoc => hfailure hoc (by decide) rfl, fun hoc hsent hback ha => ?_, fun hoc hsent hback ha => ?_, fun hoc hnot => ?_⟩
  · rw [answerEntry_of_not_refused hnot]
    obtain ⟨hothers, hfresh, hmarks, hscanned⟩ := closeEntry_closes m.outcome.closing e s
    refine ⟨hothers, hfresh, hmarks.trans (marksUnrepairable_code hnot _ _), ?_⟩
    rw [hmarks]
    exact hscanned
  · rw [hoc]
    exact closeEntry_port .delivered e (afterBurst s)
  · rw [hoc, show answerEntry .refused e (afterBurst s) = takeRefusal e (afterBurst s) from rfl,
      takeRefusal_backoff hsent hback ha]
    exact ⟨rfl, rfl⟩
  · rw [hoc, show answerEntry .refused e (afterBurst s) = takeRefusal e (afterBurst s) from rfl,
      takeRefusal_close hsent hback ha]
    obtain ⟨hothers, hfresh, hmarks, hscanned⟩ := closeEntry_closes .refused e s
    exact ⟨hothers, hfresh, hmarks, hscanned, postFailure_afterBurst (code := .refused) (n := 4) rfl e s⟩
  · rw [hoc]
    exact takeRefusal_ignored hnot

end Sys2Proof.Machine
end

section
/-! A SEGMENT at a sink: the tests of the segment filter in their order, and a claim. -/

namespace Sys2Proof.Machine

/-! ## The tests of the segment filter (R104) -/

section
variable {s : State} {p : Piece} {e : CoverageEntry}

theorem fate_of_unexpected (h : s.image.contributes p.stream = false ∨
    coverageEntry s.image s.coverage p.stream p.row p.index = none) : fate s p = .notForThisTile := by
  unfold fate
  rcases h with h | h <;> rw [h]
  · rfl
  · exact ite_self _

theorem fate_of_expected (hcontributes : s.image.contributes p.stream = true)
    (hentry : coverageEntry s.image s.coverage p.stream p.row p.index = some e) : fate s p = fateOfExpected s p e.claimed := by
  rw [fate, hcontributes, hentry]
  rfl

theorem fateOfExpected_stale (hm : s.isMember = true) (h : 32768 ≤ forward s.openFrame p.frame) (claimed : Bool) :
    fateOfExpected s p claimed = .stale := by
  rw [fateOfExpected, hm]
  exact if_pos h

theorem fateOfExpected_early (hm : s.isMember = true) (h : 1 ≤ forward s.openFrame p.frame)
    (h' : forward s.openFrame p.frame ≤ 32767) (claimed : Bool) : fateOfExpected s p claimed = .early := by
  have hnear : ¬ 32768 ≤ forward s.openFrame p.frame := Nat.not_le.2 (Nat.lt_succ_of_le h')
  rw [fateOfExpected, hm]
  exact (if_neg hnear).trans (if_pos h)

theorem fateOfExpected_open (hm : s.isMember = true) (h : p.frame = s.openFrame) (claimed : Bool) :
    fateOfExpected s p claimed = if claimed then .duplicate else if 16 ≤ s.landing.length then .overflow else .claimed := by
  have hzero : forward s.openFrame p.frame = 0 := by
    rw [h, forward, BitVec.sub_self]
    rfl
  rw [fateOfExpected, hm, hzero]
  rfl

end

/-! ## The report of a claim to the repair requester (R143) -/

section
variable {s : State} {k row : Nat} {x : RepairEntry}

/-- The claim leaves no gap in the entry's rows, and lies in one of them. -/
def ClaimCloses (s : State) (k row : Nat) (x : RepairEntry) : Prop :=
  (∃ r ∈ x.ranges, r.first ≤ row ∧ row < r.first + r.count) ∧
    ∀ y, HasGap s k y → ¬ ∃ r ∈ x.ranges, r.first ≤ y ∧ y < r.first + r.count

theorem any_covers_iff {l : List RowRange} {y : Nat} :
    l.any (fun r => r.covers y) = true ↔ ∃ r ∈ l, r.first ≤ y ∧ y < r.first + r.count := by
  simp only [List.any_eq_true, RowRange.covers, Bool.and_eq_true, decide_eq_true_iff]

theorem claimCloses_iff : (x.ranges.any (fun r => r.covers row) && rangesClaimed s.image s.coverage k x.ranges) = true ↔
    ClaimCloses s k row x := by
  rw [Bool.and_eq_true, any_covers_iff, rangesClaimed, List.all_eq_true, ClaimCloses]
  refine and_congr_right fun _ => ?_
  simp only [mem_gapRows, Bool.not_eq_true', ← Bool.not_eq_true, any_covers_iff]

theorem entryOfStream_eq_none (h : ∀ x ∈ s.requester.entries, x.stream ≠ k) : entryOfStream s k = none :=
  List.find?_eq_none.2 fun x hx => by
    rw [beq_iff_eq]
    exact h x hx

theorem entryOfStream_eq_some (hx : x ∈ s.requester.entries) (hstream : x.stream = k)
    (hdistinct : (s.requester.entries.map (·.stream)).Nodup) : entryOfStream s k = some x := by
  cases hfound : entryOfStream s k with
  | none => exact absurd (beq_iff_eq.2 hstream) (List.find?_eq_none.1 hfound x hx)
  | some y =>
    have hy : y.stream = k := beq_iff_eq.1 (List.find?_some hfound :)
    rw [List.inj_on_of_nodup_map hdistinct (List.mem_of_find?_eq_some hfound) hx (hy.trans hstream.symm)]

theorem takeClaim_of_no_entry (h : ∀ x ∈ s.requester.entries, x.stream ≠ k) : takeClaim k row s = s := by
  rw [takeClaim, entryOfStream_eq_none h]

theorem takeClaim_of_not_closing (hx : entryOfStream s k = some x) (h : ¬ ClaimCloses s k row x) : takeClaim k row s = s := by
  rw [takeClaim, hx]
  exact if_neg (fun hc => h (claimCloses_iff.1 hc))

/-- A claim that closes the entry does so without mark or event. -/
theorem takeClaim_of_closing (hx : entryOfStream s k = some x) (hstate : x.state ≠ .closed) (h : ClaimCloses s k row x) :
    ∃ code : ConditionCode, code.marksUnrepairable = false ∧ takeClaim k row s = closeEntry code x s := by
  rw [takeClaim, hx]
  dsimp only
  rw [if_pos (claimCloses_iff.2 h)]
  cases hs : x.state with
  | composed => exact ⟨.withdrawn, rfl, rfl⟩
  | sent => exact ⟨.satisfied, rfl, rfl⟩
  | closed => exact absurd hs hstate

theorem takeClaim_port (k row : Nat) (s : State) : (takeClaim k row s).port = s.port := by
  unfold takeClaim
  split
  · rfl
  · split
    · split
      · exact closeEntry_port .withdrawn _ s
      · exact closeEntry_port .satisfied _ s
      · rfl
    · rfl

end

/-! ## A claim (R108) -/

section
variable {s : State} {p : Piece}

/-- A piece claimed, before the claim is reported to the repair requester. -/
def claimed (p : Piece) (s : State) : State :=
  raise .piecesClaimed 1 (claimedPiece p s)

theorem claimed_writes (p : Piece) (s : State) : OnlyWrites [.coverage, .landing, .port] s (claimed p s) := by
  refine .followedBy ?_ (raise_writes _ _ _) (by decide)
  exact .followedBy ((setCoverage_writes _ _).widen (by decide)) (setLanding_writes _ _) (by decide)

theorem claimed_coverage (p : Piece) (s : State) :
    (claimed p s).coverage = s.coverage.claim s.image p.stream p.row p.index := rfl

theorem claim_eq_of_claimed (p : Piece) (s : State) : claim p s = tryPlace (takeClaim p.stream p.row (claimed p s)) := rfl

theorem claim_requester (p : Piece) (s : State) :
    (claim p s).requester = (takeClaim p.stream p.row (claimed p s)).requester := by
  rw [claim_eq_of_claimed, tryPlace_writes _ .requester (by decide)]

theorem claim_port (p : Piece) (s : State) : (claim p s).port = (raise .piecesClaimed 1 s).port := by
  rw [claim_eq_of_claimed, tryPlace_writes _ .port (by decide), takeClaim_port]
  exact raise_port_congr _ _ rfl

theorem claim_landing (p : Piece) (s : State) : (claim p s).landing = s.landing ++ [p] := by
  rw [claim_eq_of_claimed, tryPlace_landing, takeClaim_writes _ _ _ .landing (by decide)]
  rfl

theorem claim_coverage (p : Piece) (s : State) :
    (claim p s).coverage = s.coverage.claim s.image p.stream p.row p.index := by
  rw [claim_eq_of_claimed, tryPlace_writes _ .coverage (by decide), takeClaim_writes _ _ _ .coverage (by decide)]
  rfl

theorem claim_engine (p : Piece) (s : State) : (claim p s).engine =
    if s.engine = .idle ∧ s.banks.clear = .idle ∧ s.banks.swapPending = none ∧ s.banks.backFrame = some (s.settle.frame + 1)
    then .placing else s.engine := by
  have w := takeClaim_writes p.stream p.row (claimed p s)
  rw [claim_eq_of_claimed, tryPlace_engine]
  refine ite_congr ?_ (fun _ => rfl) (fun _ => w .engine (by decide))
  rw [mayPlace_iff, w .engine (by decide), w .landing (by decide), w .banks (by decide), w .settle (by decide)]
  exact propext (and_congr_right fun _ => and_iff_right (List.append_ne_nil_of_right_ne_nil _ (List.cons_ne_nil _ _)))

theorem outstanding_claim {c : Coverage} {img : Image} {k row i : Nat} (hlength : c.outstanding.length = 16) (hk : k < 16) :
    (c.claim img k row i).outstanding.getD k 0 = c.outstanding.getD k 0 - 1 := by
  rw [Coverage.claim, List.getD_eq_getElem _ _ (by rw [List.length_set, hlength]; exact hk), List.getElem_set_self]

/-- The gaps of the table do not depend on the rest of the state. -/
theorem hasGap_congr {s t : State} {k y : Nat} (himage : t.image = s.image) (hcoverage : t.coverage = s.coverage) :
    HasGap t k y ↔ HasGap s k y := by
  rw [HasGap, HasGap, himage, hcoverage]

theorem claimCloses_congr {s t : State} {k row : Nat} {x : RepairEntry} (himage : t.image = s.image)
    (hcoverage : t.coverage = s.coverage) : ClaimCloses t k row x ↔ ClaimCloses s k row x := by
  simp only [ClaimCloses, hasGap_congr himage hcoverage]

end

/-! ## The sign of life of a repair SEGMENT (R142) -/

/-- The wait count of a SENT entry with this tag returns to 0. -/
def heardFrom (tag : Nat) (e : RepairEntry) : RepairEntry :=
  if e.tag = tag then (if e.state = .sent then { e with wait := 0 } else e) else e

theorem heardFrom_same (tag : Nat) (e : RepairEntry) : (heardFrom tag e).tag = e.tag ∧ (heardFrom tag e).stream = e.stream ∧
    (heardFrom tag e).ranges = e.ranges ∧ (heardFrom tag e).state = e.state := by
  unfold heardFrom
  split
  · split <;> exact ⟨rfl, rfl, rfl, rfl⟩
  · exact ⟨rfl, rfl, rfl, rfl⟩

/-- From `s` to `u` entries of the repair list may have had a sign of life; nothing else differs but the burst's end. -/
structure Enlivened (s u : State) : Prop where
  writes : OnlyWrites [.bus, .requester] s u
  entries : ∃ g : RepairEntry → RepairEntry,
    (∀ e, (g e).tag = e.tag ∧ (g e).stream = e.stream ∧ (g e).ranges = e.ranges ∧ (g e).state = e.state) ∧
      u.requester.entries = s.requester.entries.map g

theorem afterBurst_enlivened (s : State) : Enlivened s (afterBurst s) :=
  ⟨(setBus_writes _ _).widen (by decide), id, fun _ => ⟨rfl, rfl, rfl, rfl⟩, (List.map_id _).symm⟩

theorem takeRepairMark_enlivened (r : RepairMark) (s : State) : Enlivened s (takeRepairMark r (afterBurst s)) := by
  unfold takeRepairMark
  split
  · exact ⟨.followedBy ((setBus_writes _ _).widen (by decide)) (changeEntry_writes _ _ _) (by decide), heardFrom r.tag,
      heardFrom_same r.tag, rfl⟩
  · exact afterBurst_enlivened s

section
variable {s u : State} {p : Piece} {x : RepairEntry}

theorem Enlivened.no_entry (h : Enlivened s u) {k : Nat} (hnone : ∀ x ∈ s.requester.entries, x.stream ≠ k) :
    ∀ x ∈ u.requester.entries, x.stream ≠ k := by
  obtain ⟨g, hg, hentries⟩ := h.entries
  intro x hx
  rw [hentries] at hx
  obtain ⟨y, hy, rfl⟩ := List.mem_map.1 hx
  rw [(hg y).2.1]
  exact hnone y hy

/-- The entry of a stream is found again after a sign of life. -/
theorem Enlivened.entry (h : Enlivened s u) (hx : x ∈ s.requester.entries)
    (hdistinct : (s.requester.entries.map (·.stream)).Nodup) : ∃ z, entryOfStream u x.stream = some z ∧ z.tag = x.tag ∧
      z.ranges = x.ranges ∧ z.state = x.state := by
  obtain ⟨g, hg, hentries⟩ := h.entries
  obtain ⟨htag, hstream, hranges, hstate⟩ := hg x
  refine ⟨g x, entryOfStream_eq_some ?_ hstream ?_, htag, hranges, hstate⟩
  · rw [hentries]
    exact List.mem_map_of_mem hx
  · rw [hentries, List.map_map]
    have hsame : s.requester.entries.map ((·.stream) ∘ g) = s.requester.entries.map (·.stream) :=
      List.map_congr_left fun e _ => (hg e).2.1
    rw [hsame]
    exact hdistinct

/-- A claim that does not close the stream's entry leaves the repair list. -/
theorem claim_requester_kept (h : Enlivened s u) (hx : x ∈ s.requester.entries) (hstream : x.stream = p.stream)
    (hdistinct : (s.requester.entries.map (·.stream)).Nodup) (hopen : ¬ ClaimCloses (claimed p u) p.stream p.row x) :
    (claim p u).requester = u.requester := by
  obtain ⟨z, hz, -, hranges, -⟩ := h.entry hx hdistinct
  rw [hstream] at hz
  rw [claim_requester, takeClaim_of_not_closing (s := claimed p u) hz]
  · rfl
  · rw [ClaimCloses, hranges]
    exact hopen

/-- A claim that closes the stream's entry takes it out of the list, and a gap scan follows. -/
theorem claim_requester_closed (h : Enlivened s u) (hx : x ∈ s.requester.entries) (hstream : x.stream = p.stream)
    (hstate : x.state ≠ .closed) (hdistinct : (s.requester.entries.map (·.stream)).Nodup)
    (hcloses : ClaimCloses (claimed p u) p.stream p.row x) : (claim p u).requester =
      (gapScan ((s.setCoverage (claim p u).coverage).setRequester { u.requester with
        entries := u.requester.entries.filter (fun z => z.tag != x.tag) })).requester := by
  obtain ⟨z, hz, htag, hranges, hstate'⟩ := h.entry hx hdistinct
  rw [hstream] at hz
  obtain ⟨code, hmarks, heq⟩ := takeClaim_of_closing (s := claimed p u) (row := p.row) hz (hstate'.trans_ne hstate)
    (by rw [ClaimCloses, hranges]; exact hcloses)
  rw [claim_requester, heq, closeEntry_requester, hmarks, htag, claim_coverage, ← claimed_coverage p u]
  have w := claimed_writes p u
  have hrequester : (claimed p u).requester = u.requester := w .requester (by decide)
  have hloader : (claimed p u).loader = s.loader := (w .loader (by decide)).trans (h.writes .loader (by decide))
  have hmembers : (claimed p u).members = s.members := (w .members (by decide)).trans (h.writes .members (by decide))
  have hsettle : (claimed p u).settle = s.settle := (w .settle (by decide)).trans (h.writes .settle (by decide))
  generalize claimed p u = v at hrequester hloader hmembers hsettle
  rw [hrequester]
  exact gapScan_congr rfl hloader rfl hmembers hsettle

end

/-- Settles O41. -/
theorem segmentMeetsItsFate : Obligations.SegmentMeetsItsFate := by
  intro s u heard o k p mark hm h
  have hexec := burstTaken_delivered h hm o
  refine ⟨fun hsink => ?_, fun hsink hu => ?_⟩
  · refine hexec.trans (congrArg Host.Outcome.next ?_)
    show takeSegment ⟨p, mark⟩ (afterBurst s) = _
    rw [takeSegment, show (afterBurst s).image = s.image from rfl, hsink]
    rfl
  obtain ⟨hfilter, hlive⟩ : deliverMember ⟨k, .segment ⟨p, mark⟩⟩ o (afterBurst s) = filterSegment p u ∧ Enlivened s u := by
    have hdeliver : deliverMember ⟨k, .segment ⟨p, mark⟩⟩ o (afterBurst s) = takeSegment ⟨p, mark⟩ (afterBurst s) := rfl
    rw [hdeliver, takeSegment, show (afterBurst s).image = s.image from rfl, hsink, if_pos rfl]
    cases mark with
    | none =>
      subst hu
      exact ⟨rfl, afterBurst_enlivened s⟩
    | some r =>
      have hu : u = takeRepairMark r (afterBurst s) := hu
      subst hu
      exact ⟨rfl, takeRepairMark_enlivened r s⟩
  clear hu
  rw [hfilter] at hexec
  have w := hlive.writes
  have himage : u.image = s.image := image_of_writes w (by decide)
  have hcoverage : u.coverage = s.coverage := w .coverage (by decide)
  have hsettle : u.settle = s.settle := w .settle (by decide)
  have hlanding : u.landing = s.landing := w .landing (by decide)
  have hport : u.port = s.port := w .port (by decide)
  have hmember : u.isMember = true := (isMember_of_writes w (by decide)).trans hm
  have hopen : u.openFrame = s.settle.frame + 1 := congrArg (fun x : Settle => x.frame + 1) hsettle
  refine ⟨fun hnot => ?_, fun e hcontributes hentry => ?_⟩
  · rw [hexec, filterSegment, fate_of_unexpected (by rw [himage, hcoverage]; exact hnot)]
  have hfate := fate_of_expected (s := u) (by rw [himage]; exact hcontributes) (by rw [himage, hcoverage]; exact hentry)
  refine ⟨fun hback => ?_, fun hahead hahead' => ?_, fun hframe hclaimed => ?_, fun hframe hclaimed hfull => ?_,
    fun hframe hclaimed hroom houtstanding hstream hcounters => ?_⟩
  · rw [hexec, filterSegment, hfate, fateOfExpected_stale hmember (by rw [hopen]; exact hback)]
  · rw [hexec, filterSegment, hfate, fateOfExpected_early hmember (by rw [hopen]; exact hahead) (by rw [hopen]; exact hahead')]
  · rw [hexec, filterSegment, hfate, fateOfExpected_open hmember (by rw [hopen]; exact hframe), hclaimed]
    rfl
  · rw [hexec, filterSegment, hfate, fateOfExpected_open hmember (by rw [hopen]; exact hframe), hclaimed,
      if_neg Bool.false_ne_true, if_pos (by rw [hlanding]; exact hfull)]
  rw [filterSegment, hfate, fateOfExpected_open hmember (by rw [hopen]; exact hframe), hclaimed, if_neg Bool.false_ne_true,
    if_neg (by rw [hlanding]; exact Nat.not_le.2 hroom)] at hexec
  have hwrites : OnlyWrites [.bus, .coverage, .landing, .engine, .requester, .port] s (claim p u) :=
    .followedBy (w.widen (by decide)) (claim_writes p u) (by decide)
  refine ⟨claim p u, hexec, hwrites, ?_, ?_, ?_, ?_, ?_, ?_, fun hnone => ?_, fun x hx hxs hstate hstreams _ done hdone => ?_⟩
  · rw [claim_landing, hlanding]
  · rw [claim_coverage, himage, hcoverage]
    exact coverageEntry_claim _ _ _ _ _ _ hentry
  · rw [claim_coverage, hcoverage]
    exact outstanding_claim houtstanding hstream
  · rw [State.counter, claim_port]
    refine (counter_raise_self (by rw [hport]; exact hcounters)).trans ?_
    rw [State.counter, State.counter, hport]
    rfl
  · rw [claim_engine, w .engine (by decide), w .banks (by decide), hsettle]
  · rw [claim_port, raise_events, hport]
  · rw [claim_requester, takeClaim_of_no_entry (s := claimed p u) (hlive.no_entry hnone)]
    rfl
  · have hdone : done ↔ ClaimCloses (claimed p u) p.stream p.row x := by
      refine hdone.trans (claimCloses_congr ?_ (claim_coverage p u))
      rw [image_of_writes hwrites (by decide), ← himage]
      rfl
    exact ⟨fun hnot => claim_requester_kept hlive hx hxs hstreams (fun hc => hnot (hdone.2 hc)),
      fun hd => claim_requester_closed hlive hx hxs hstate hstreams (hdone.1 hd)⟩

end Sys2Proof.Machine
end

section
/-! A REQUEST at the repair responder: the six tests in their order, and a service that begins. -/

namespace Sys2Proof.Machine

/-! ## Replies (R160) -/

section
variable {s : State} {m : StatusFields}

theorem offerReply_of_room (h : s.responder.replies.length < 4) :
    offerReply m s = s.setResponder { s.responder with replies := s.responder.replies ++ [m] } := if_pos h

theorem offerReply_of_full (h : 4 ≤ s.responder.replies.length) : offerReply m s = raise .statusesDropped 1 s :=
  if_neg (Nat.not_lt.2 h)

theorem offerReply_eq (m : StatusFields) (s : State) : offerReply m s = if s.responder.replies.length < 4 then
    s.setResponder { s.responder with replies := s.responder.replies ++ [m] } else raise .statusesDropped 1 s := rfl

end

/-! ## Requests that fit their stream (R153) -/

theorem rangesAscend_iff {l : List RowRange} (hcounts : ∀ r ∈ l, r.count ≠ 0) :
    rangesAscend l = true ↔ l.Pairwise (fun a b => a.first + a.count ≤ b.first) := by
  induction l with
  | nil => exact iff_of_true rfl .nil
  | cons a l ih =>
    have hrest := ih fun r hr => hcounts r (List.mem_cons_of_mem _ hr)
    cases l with
    | nil => exact iff_of_true rfl (List.pairwise_singleton _ _)
    | cons b l =>
      have ha := hcounts a List.mem_cons_self
      have hstep : rangesAscend (a :: b :: l) = true ↔ a.first + a.count ≤ b.first ∧ rangesAscend (b :: l) = true := by
        rw [rangesAscend, Bool.and_eq_true, decide_eq_true_iff]
        exact and_congr_left fun _ => by omega
      rw [hstep, hrest, List.pairwise_cons (a := a)]
      refine ⟨fun ⟨hab, hpairs⟩ => ⟨fun c hc => ?_, hpairs⟩, fun ⟨hfirst, hpairs⟩ => ⟨hfirst b List.mem_cons_self, hpairs⟩⟩
      rcases List.mem_cons.1 hc with rfl | hc
      · exact hab
      · have hbc := List.rel_of_pairwise_cons hpairs hc
        omega

theorem requestMalformed_iff {e : StreamEntry} {q : RequestFields} : requestMalformed e q = true ↔
    q.lastColumn < q.firstColumn ∨ q.firstColumn < e.x0 ∨ e.x0 + e.width ≤ q.lastColumn ∨
      (∃ r ∈ q.ranges, r.count = 0 ∨ r.first < e.y0 ∨ e.y0 + e.height < r.first + r.count) ∨
      ¬ q.ranges.Pairwise (fun a b => a.first + a.count ≤ b.first) := by
  have hranges : ((∃ r ∈ q.ranges, r.count = 0) ∨ (∃ r ∈ q.ranges, r.first < e.y0 ∨ e.y0 + e.height < r.first + r.count) ∨
      rangesAscend q.ranges = false) ↔
      ((∃ r ∈ q.ranges, r.count = 0 ∨ r.first < e.y0 ∨ e.y0 + e.height < r.first + r.count) ∨
        ¬ q.ranges.Pairwise (fun a b => a.first + a.count ≤ b.first)) := by
    by_cases hzero : ∃ r ∈ q.ranges, r.count = 0
    · obtain ⟨r, hr, hcount⟩ := hzero
      exact iff_of_true (.inl ⟨r, hr, hcount⟩) (.inl ⟨r, hr, .inl hcount⟩)
    · have hcounts : ∀ r ∈ q.ranges, r.count ≠ 0 := fun r hr hcount => hzero ⟨r, hr, hcount⟩
      rw [← rangesAscend_iff hcounts, Bool.not_eq_true, or_iff_right hzero]
      refine or_congr_left (exists_congr fun r => and_congr_right fun hr => ?_)
      exact (or_iff_right (hcounts r hr)).symm
  simp only [requestMalformed, Bool.or_eq_true, decide_eq_true_iff, List.any_eq_true, beq_iff_eq, Bool.not_eq_true', or_assoc, hranges]

/-! ## The tests in their order (R152) -/

section
variable {s : State} {k : Nat} {q : RequestFields}

theorem requesterPresent_iff : requesterPresent s k = true ↔ k = s.image.stationNumber ∨ (s.member k).status = .present := by
  rw [requesterPresent, Bool.or_eq_true, beq_iff_eq, State.present, beq_iff_eq]

theorem requestQueued_iff {tag : Nat} : requestQueued s k tag = true ↔
    ∃ r ∈ s.responder.queue, r.requester = k ∧ r.fields.tag = tag := by
  simp only [requestQueued, List.any_eq_true, Bool.and_eq_true, beq_iff_eq]

theorem testRequest_absent (h : ¬ requesterPresent s k = true) : testRequest k q s = raise .requestsIgnored 1 s :=
  if_pos (by rw [Bool.not_eq_true', ← Bool.not_eq_true]; exact h)

theorem testRequest_gone (hpresent : requesterPresent s k = true) (h : q.frame ≠ s.openFrame ∨ s.capture.state = .dormant) :
    testRequest k q s = offerReply (immediateStatus k q .gone) s := by
  rw [testRequest, hpresent, Bool.not_true, if_neg Bool.false_ne_true, if_pos]
  rw [Bool.or_eq_true, decide_eq_true_iff, beq_iff_eq]
  exact h

/-- Past the tests of the requester and of the frame. -/
theorem testRequest_of_open (hpresent : requesterPresent s k = true) (hframe : q.frame = s.openFrame)
    (hstate : s.capture.state ≠ .dormant) : testRequest k q s =
      if requestMalformed (ownEntry s) q then offerReply (immediateStatus k q .malformed) s
      else if requestQueued s k q.tag then s
      else if 8 ≤ s.responder.queue.length then raise .requestsRefused 1 (offerReply (immediateStatus k q .refused) s)
      else acceptRequest k q s := by
  rw [testRequest, hpresent, Bool.not_true, if_neg Bool.false_ne_true, if_neg]
  · rfl
  · rw [Bool.or_eq_true, decide_eq_true_iff, beq_iff_eq, not_or]
    exact ⟨not_not_intro hframe, hstate⟩

/-- A service of a single request whose walk finds nothing. -/
theorem serve_single_exhausted {r : QueuedRequest} {gone : Nat}
    (h : walk s.ring (requestPieces (ownEntry s) r.fields) r.gone = .exhausted gone) : serve [r] s =
      (offerReply (serviceStatus { r with gone := gone }) s).setResponder
        { (offerReply (serviceStatus { r with gone := gone }) s).responder with queue := [], cursor := none, slot := none } := by
  rw [serve_exhausted h, serve_nil]

end

/-- Settles O40. -/
theorem requestIsTestedInOrder : Obligations.RequestIsTestedInOrder := by
  refine ⟨fun _ => rfl, fun u w r rest => ⟨fun c e gone h => serve_found h, fun gone h hw => ?_⟩, ?_⟩
  · rw [serve_exhausted h, offerReply_eq, hw]
    rfl
  intro s u heard o k q hm h hu answer hanswer malformed hmalformed
  have hexec := burstTaken_delivered h hm o
  rw [← hu] at hexec
  have hdeliver : deliverMember ⟨k, .request q⟩ o u = if u.image.ownStream = some q.stream then testRequest k q u else u := rfl
  rw [hdeliver] at hexec
  have hreply (oc : Outcome) : offerReply (immediateStatus k q oc) u = answer oc := by
    rw [hanswer, offerReply_eq, hu]
    rfl
  have hmalformed' : requestMalformed (ownEntry u) q = true ↔ malformed := by
    rw [requestMalformed_iff, hmalformed, hu]
    rfl
  have hpresent' : requesterPresent u k = true ↔ k = s.image.stationNumber ∨ (s.member k).status = .present := by
    rw [requesterPresent_iff, hu]
    rfl
  have himage : u.image = s.image := by rw [hu]; rfl
  rw [himage] at hexec
  refine ⟨fun hstream => ?_, fun hstream hk hstatus => ?_, fun hstream hpresent => ?_⟩
  · rw [hexec, if_neg hstream]
  · rw [hexec, if_pos hstream, testRequest_absent]
    rw [hpresent', not_or]
    exact ⟨hk, hstatus⟩
  rw [if_pos hstream] at hexec
  have hpresent := hpresent'.2 hpresent
  have hcapture : u.capture = s.capture := by rw [hu]; rfl
  have hopen : u.openFrame = s.settle.frame + 1 := by rw [hu]; rfl
  have hqueue : u.responder.queue = s.responder.queue := by rw [hu]; rfl
  refine ⟨fun hgone => ?_, fun hframe hstate => ?_⟩
  · rw [hexec, testRequest_gone hpresent (by rw [hopen, hcapture]; exact hgone), hreply]
  rw [testRequest_of_open hpresent (hframe.trans hopen.symm) (by rw [hcapture]; exact hstate)] at hexec
  refine ⟨fun hbad => ?_, fun hgood => ⟨fun hcopy => ?_, fun hnew => ⟨fun hfull => ?_, fun hroom hne => ?_, fun hempty => ?_⟩⟩⟩
  · rw [hexec, if_pos (hmalformed'.2 hbad), hreply]
  · rw [hexec, if_neg (fun hc => hgood (hmalformed'.1 hc)), if_pos]
    rw [requestQueued_iff, hqueue]
    exact hcopy
  all_goals
    have hnew : ¬ requestQueued u k q.tag = true := by
      rw [requestQueued_iff, hqueue]
      exact hnew
    rw [if_neg (fun hc => hgood (hmalformed'.1 hc)), if_neg hnew, hqueue] at hexec
  · rw [hexec, if_pos hfull, hreply]
  · rw [hexec, if_neg (Nat.not_le.2 hroom), acceptRequest_of_ne_nil (by rw [hqueue]; exact hne), hu]
    rfl
  · rw [if_neg (by rw [hempty]; decide), acceptRequest_of_nil (hqueue.trans hempty)] at hexec
    rw [hexec, hu]
    have hserve (gone : Nat) (hend : walk s.ring (requestPieces (ownEntry s) q) 0 = .exhausted gone) :
        serve [⟨k, q, 0, 0⟩] (afterBurst s) = (offerReply ⟨k, q.tag, .gone, q.frame, 0, gone⟩ (afterBurst s)).setResponder
          { (offerReply ⟨k, q.tag, .gone, q.frame, 0, gone⟩ (afterBurst s)).responder with
            queue := [], cursor := none, slot := none } :=
      serve_single_exhausted (s := afterBurst s) (r := ⟨k, q, 0, 0⟩) hend
    refine ⟨fun c e gone hfound => ?_, fun gone hend hroom => ?_, fun gone hend hfull => ?_⟩
    · rw [serve_found (s := afterBurst s) (r := ⟨k, q, 0, 0⟩) hfound]
      rfl
    · rw [hserve gone hend, offerReply_of_room (s := afterBurst s) hroom]
      rfl
    · rw [hserve gone hend, offerReply_of_full (s := afterBurst s) hfull]
      rfl

end Sys2Proof.Machine
end

section
/-! A STATE at a MEMBER: the membership table, the settle unit and the published mark, in the order of the command. -/

namespace Sys2Proof.Machine

/-! ## What a gap scan reads of the membership table (R138) -/

section
variable {s t : State}

/-- A gap scan asks the membership table for PRESENT entries alone. -/
theorem composeFor_congr_present (hr : t.requester = s.requester) (hl : t.loader = s.loader) (hc : t.coverage = s.coverage)
    (hp : ∀ j, t.present j = s.present j) (hs : t.settle = s.settle) (k : Nat) :
    (composeFor t k).requester = (composeFor s k).requester := by
  have hi : t.image = s.image := by rw [State.image, State.image, hl]
  have hmay : mayCompose t k = mayCompose s k := by simp only [mayCompose, entryOfStream, hr, hi, hc, hp]
  have htag : nextTag t = nextTag s := by simp only [nextTag, entryOfTag, hr]
  have hnew : newEntry t k = newEntry s k := by simp only [newEntry, htag, State.openFrame, hi, hc, hs]
  rw [composeFor, composeFor, hmay, hnew, htag, hr]
  split
  · rfl
  · exact hr

theorem gapScan_congr_present (hr : t.requester = s.requester) (hl : t.loader = s.loader) (hc : t.coverage = s.coverage)
    (hp : ∀ j, t.present j = s.present j) (hs : t.settle = s.settle) : (gapScan t).requester = (gapScan s).requester := by
  have hi : t.image = s.image := by rw [State.image, State.image, hl]
  unfold gapScan
  rw [hi]
  generalize s.image.contributing = l
  clear hi
  induction l generalizing s t with
  | nil => exact hr
  | cons a l ih =>
    have w := composeFor_writes s a
    have w' := composeFor_writes t a
    refine ih (composeFor_congr_present hr hl hc hp hs a) ?_ ?_ (fun j => ?_) ?_
    · rw [w .loader (by decide), w' .loader (by decide), hl]
    · rw [w .coverage (by decide), w' .coverage (by decide), hc]
    · rw [State.present, State.present, State.member, State.member, w .members (by decide), w' .members (by decide)]
      exact hp j
    · rw [w .settle (by decide), w' .settle (by decide), hs]

end

/-! ## The arrivals one by one -/

section
variable {s : State} {k : Nat} {m : StateFields}

theorem declaresPublished_eq_none (h : m.offer = none ∨ k = s.image.stationNumber ∨ m.digest ≠ s.digest) :
    declaresPublished s k m = none := by
  unfold declaresPublished
  split
  · rfl
  next hoffer =>
    refine if_neg ?_
    simp only [Bool.and_eq_true, decide_eq_true_iff, beq_iff_eq]
    rintro ⟨⟨⟨⟨⟨hk, hdigest⟩, -⟩, -⟩, -⟩, -⟩
    rcases h with h | h | h
    · rw [hoffer] at h
      exact absurd h (Option.some_ne_none _)
    · exact hk h
    · exact h hdigest

theorem declaresPublished_eq_some {a : Nat} (hk : k ≠ s.image.stationNumber) (hdigest : m.digest = s.digest)
    (hoffer : m.offer = some ⟨a, some s.openFrame, true⟩) (hcontributes : s.image.contributes a = true)
    (hpublisher : (s.image.stream a).publisher = k) : declaresPublished s k m = some a := by
  unfold declaresPublished
  rw [hoffer]
  refine if_pos ?_
  simp only [Bool.and_eq_true, decide_eq_true_iff, beq_iff_eq]
  exact ⟨⟨⟨⟨⟨hk, hdigest⟩, hcontributes⟩, hpublisher⟩, trivial⟩, trivial⟩

theorem requesterTakeState_of_none (h : declaresPublished s k m = none) : requesterTakeState k m s = s := by
  rw [requesterTakeState, h]
  exact ite_self _

theorem requesterTakeState_of_some {a : Nat} (hacts : s.actsAsSink = true) (h : declaresPublished s k m = some a) :
    requesterTakeState k m s = markPublished a s := by
  rw [requesterTakeState, hacts, h]
  rfl

theorem settleTakeState_of_not_taken (h : k = s.image.stationNumber ∨ m.digest ≠ s.digest) : settleTakeState k m s = s := by
  refine if_neg ?_
  rw [Bool.and_eq_true, decide_eq_true_iff, beq_iff_eq]
  exact fun ⟨hk, hdigest⟩ => h.elim hk (fun hn => hn hdigest)

theorem settleTakeState_of_taken (hk : k ≠ s.image.stationNumber) (hdigest : m.digest = s.digest) : settleTakeState k m s =
    takeAhead .state m.settled m.kind (compareFrame s.settle.frame m.settled) s := by
  refine if_pos ?_
  rw [Bool.and_eq_true, decide_eq_true_iff, beq_iff_eq]
  exact ⟨hk, hdigest⟩

/-- A STATE whose frame is not ahead brings no settle (R76). -/
theorem settleTakeState_of_not_ahead (h : forward s.settle.frame m.settled = 0 ∨ 32768 ≤ forward s.settle.frame m.settled) :
    settleTakeState k m s = s := by
  unfold settleTakeState
  split
  · rcases h with h | h
    · rw [compareFrame_of_same h]
      rfl
    · rw [compareFrame_of_behind h]
      rfl
  · rfl

/-- The entry a matching STATE leaves (R55). -/
def matchedEntry (m : StateFields) (e : MemberEntry) : MemberEntry :=
  ⟨.present, m.source, m.sink, 0, e.status == .present && e.eligible, some ⟨m.settled, m.kind, m.ready, m.shown, m.offer⟩⟩

theorem tableTakeState_own (h : k = s.image.stationNumber) : tableTakeState k m s =
    s.setMembers (s.members.set k { s.member k with record := some ⟨m.settled, m.kind, m.ready, m.shown, m.offer⟩ }) := if_pos h

theorem tableTakeState_matching (hk : k ≠ s.image.stationNumber) (h : m.digest = s.digest) : tableTakeState k m s =
    if (s.member k).status = .present then s.setMembers (s.members.set k (matchedEntry m (s.member k)))
    else post .memberPresent s.settle.frame (toByte k) (s.setMembers (s.members.set k (matchedEntry m (s.member k)))) := by
  rw [tableTakeState, if_neg hk, if_pos h]
  exact if_congr beq_iff_eq rfl rfl

theorem tableTakeState_differing (hk : k ≠ s.image.stationNumber) (h : m.digest ≠ s.digest) : tableTakeState k m s =
    if (s.member k).status = .foreign then s.setMembers (s.members.set k ⟨.foreign, m.source, m.sink, 0, false, none⟩)
    else post .foreign s.settle.frame (toByte k)
      (s.setMembers (s.members.set k ⟨.foreign, m.source, m.sink, 0, false, none⟩)) := by
  rw [tableTakeState, if_neg hk, if_neg h]
  rfl

theorem tableTakeState_members (hk : k ≠ s.image.stationNumber) (h : m.digest = s.digest) :
    (tableTakeState k m s).members = s.members.set k (matchedEntry m (s.member k)) := by
  rw [tableTakeState_matching hk h]
  split
  · rfl
  · exact post_writes _ _ _ _ .members (by decide)

/-- The table after a matching STATE, entry by entry. -/
theorem tableTakeState_member (hk : k ≠ s.image.stationNumber) (h : m.digest = s.digest) (hlength : s.members.length = 32)
    (hlow : k < 32) (i : Nat) :
    (tableTakeState k m s).member i = if i = k then matchedEntry m (s.member k) else s.member i := by
  rw [State.member, tableTakeState_members hk h, List.getD_eq_getElem?_getD, List.getElem?_set, State.member]
  by_cases hi : i = k
  · rw [if_pos hi.symm, if_pos (by omega), if_pos hi]
    rfl
  · rw [if_neg (Ne.symm hi), if_neg hi, ← List.getD_eq_getElem?_getD]
    rfl

end

/-! ## All arrivals of a STATE (log entry 2) -/

/-- What the arrivals of a STATE may write. -/
abbrev stateFields : List Field := [.settle, .members, .capture, .ring, .publishQueue, .responder, .coverage, .landing, .engine,
  .banks, .freeSeq, .requester, .port]

section
variable {s : State} {k : Nat} {m : StateFields}

/-- The arrivals of a STATE, in any order, of which all but one keep what holds before it, and what holds after it. -/
theorem stateArrivals_passes {P Q : State → Prop} {a₀ : StateArrival} {fs : List Field}
    (hfields : ∀ u a, OnlyWrites fs s u → OnlyWrites fs s (stateArrive k m u a))
    (hP : ∀ u a, a ≠ a₀ → OnlyWrites fs s u → P u → P (stateArrive k m u a))
    (hQ : ∀ u a, a ≠ a₀ → OnlyWrites fs s u → Q u → Q (stateArrive k m u a))
    (hone : ∀ u, OnlyWrites fs s u → P u → Q (stateArrive k m u a₀)) (hs : P s) (o : Orders) :
    Q ((stateOrder o).foldl (stateArrive k m) s) :=
  (foldl_passes (P := fun u => OnlyWrites fs s u ∧ P u) (Q := fun u => OnlyWrites fs s u ∧ Q u)
    (fun u a ha h => ⟨hfields u a h.1, hP u a ha h.1 h.2⟩) (fun u a ha h => ⟨hfields u a h.1, hQ u a ha h.1 h.2⟩)
    (fun u h => ⟨hfields u a₀ h.1, hone u h.1 h.2⟩) (stateOrder_once o).1 ((stateOrder_once o).2 a₀) s ⟨.refl, hs⟩).2

theorem stateArrive_fields (u : State) (a : StateArrival) (w : OnlyWrites stateFields s u) :
    OnlyWrites stateFields s (stateArrive k m u a) := .followedBy w (stateArrive_writes k m u a) (by decide)

/-- A STATE that brings neither a settle nor an offer changes the table alone. -/
theorem stateArrivals_table_alone (h : ∀ u, OnlyWrites [.members, .port] s u →
    settleTakeState k m u = u ∧ requesterTakeState k m u = u) (o : Orders) :
    (stateOrder o).foldl (stateArrive k m) s = tableTakeState k m s := by
  have hother (u : State) (a : StateArrival) (ha : a ≠ .record) (hu : OnlyWrites [.members, .port] s u) : stateArrive k m u a = u := by
    cases a with
    | record => exact absurd rfl ha
    | catchUp => exact (h u hu).1
    | published => exact (h u hu).2
  refine foldl_passes (a₀ := .record) (P := fun u => u = s) (Q := fun u => u = tableTakeState k m s) (fun u a ha hu => ?_)
    (fun u a ha hu => ?_) (fun u hu => ?_) (stateOrder_once o).1 ((stateOrder_once o).2 .record) s rfl
  · rw [hu]
    exact hother s a ha .refl
  · rw [hu]
    exact hother _ a ha (tableTakeState_writes k m s)
  · rw [hu]
    rfl

theorem stateOrder_perm (o : Orders) : (stateOrder o).Perm [.record, .catchUp, .published] :=
  (List.perm_ext_iff_of_nodup (stateOrder_once o).1 (by decide)).2 fun a =>
    iff_of_true ((stateOrder_once o).2 a) (by cases a <;> decide)

end

/-! ## A STATE with a matching digest (R55, R76 to R78, R137) -/

section
variable {s : State} {k : Nat} {m : StateFields}

theorem settleTakeState_reeligible (k : Nat) (m : StateFields) (s : State) : Reeligible s (settleTakeState k m s) := by
  unfold settleTakeState
  split
  · exact takeAhead_reeligible _ _ _ _ _
  · exact .inl rfl

theorem stateArrive_reeligible {a : StateArrival} (ha : a ≠ .record) (u : State) : Reeligible u (stateArrive k m u a) := by
  cases a with
  | record => exact absurd rfl ha
  | catchUp => exact settleTakeState_reeligible k m u
  | published => exact .of_writes (requesterTakeState_writes k m u)

theorem member_of_length_le {i : Nat} (h : s.members.length ≤ i) : s.member i = .unheard := List.getD_eq_default _ _ h

/-- The table after all arrivals is, but for eligibility, what the STATE makes of it. -/
theorem stateArrivals_member (hk : k ≠ s.image.stationNumber) (hdigest : m.digest = s.digest) (hlength : s.members.length = 32)
    (hlow : k < 32) (o : Orders) (i : Nat) : (((stateOrder o).foldl (stateArrive k m) s).member i).plain =
      (if i = k then matchedEntry m (s.member k) else s.member i).plain := by
  have hmembers : ((stateOrder o).foldl (stateArrive k m) s).members.length = 32 ∧
      ∀ i, i < 32 → (((stateOrder o).foldl (stateArrive k m) s).member i).plain = ((tableTakeState k m s).member i).plain := by
    refine stateArrivals_passes (a₀ := .record) (fs := stateFields)
      (P := fun u => u.members.length = 32 ∧ ∀ i, i < 32 → (u.member i).plain = (s.member i).plain)
      (Q := fun u => u.members.length = 32 ∧ ∀ i, i < 32 → (u.member i).plain = ((tableTakeState k m s).member i).plain)
      stateArrive_fields (fun u a ha _ => (stateArrive_reeligible ha u).plain) (fun u a ha _ => (stateArrive_reeligible ha u).plain)
      (fun u w ⟨hlen, hplain⟩ => ?_) ⟨hlength, fun _ _ => rfl⟩ o
    have hk' : k ≠ u.image.stationNumber := by
      rw [image_of_writes w (by decide)]
      exact hk
    have hdigest' : m.digest = u.digest := hdigest.trans (digest_of_writes w (by decide)).symm
    refine ⟨?_, fun i hi => ?_⟩
    · show (tableTakeState k m u).members.length = 32
      rw [tableTakeState_members hk' hdigest', List.length_set, hlen]
    · show ((tableTakeState k m u).member i).plain = _
      rw [tableTakeState_member hk' hdigest' hlen hlow, tableTakeState_member hk hdigest hlength hlow]
      split
      · rfl
      · exact hplain i hi
  obtain ⟨hlength', hplain⟩ := hmembers
  rw [← tableTakeState_member hk hdigest hlength hlow]
  rcases Nat.lt_or_ge i 32 with hi | hi
  · exact hplain i hi
  · rw [member_of_length_le (by omega), member_of_length_le]
    rw [tableTakeState_members hk hdigest, List.length_set]
    omega

/-- A frame ahead is taken as a settle (R76 to R78). -/
theorem stateArrivals_settle_of_ahead (hk : k ≠ s.image.stationNumber) (hdigest : m.digest = s.digest)
    (hlow : 1 ≤ forward s.settle.frame m.settled) (hhigh : forward s.settle.frame m.settled ≤ 32767) (o : Orders) :
    ((stateOrder o).foldl (stateArrive k m) s).settle = { s.settle with frame := m.settled, kind := m.kind, openAge := 0 } := by
  refine stateArrivals_passes (a₀ := .catchUp) (fs := stateFields) (P := fun u => u.settle = s.settle)
    (Q := fun u => u.settle = { s.settle with frame := m.settled, kind := m.kind, openAge := 0 }) stateArrive_fields
    (fun u a ha _ hu => (stateArrive_settle ha u).trans hu) (fun u a ha _ hu => (stateArrive_settle ha u).trans hu)
    (fun u w hu => ?_) rfl o
  show (settleTakeState k m u).settle = _
  rw [settleTakeState_of_taken (by rw [image_of_writes w (by decide)]; exact hk)
    (hdigest.trans (digest_of_writes w (by decide)).symm), takeAhead_settle_of_ahead (by rw [hu]; exact hlow) (by rw [hu]; exact hhigh), hu]

end

/-! ## A STATE whose frame is not ahead -/

section
variable {s : State} {k : Nat} {m : StateFields}

/-- The fields a STATE without a settle writes. -/
abbrev quietStateFields : List Field := [.members, .requester, .port]

theorem stateArrive_quiet (h : forward s.settle.frame m.settled = 0 ∨ 32768 ≤ forward s.settle.frame m.settled) (u : State)
    (a : StateArrival) (w : OnlyWrites quietStateFields s u) : OnlyWrites quietStateFields s (stateArrive k m u a) := by
  cases a with
  | record => exact .followedBy w (tableTakeState_writes k m u) (by decide)
  | catchUp =>
    rw [show stateArrive k m u .catchUp = settleTakeState k m u from rfl,
      settleTakeState_of_not_ahead (by rw [show u.settle = s.settle from w .settle (by decide)]; exact h)]
    exact w
  | published => exact .followedBy w (requesterTakeState_writes k m u) (by decide)

theorem stateArrivals_quiet (h : forward s.settle.frame m.settled = 0 ∨ 32768 ≤ forward s.settle.frame m.settled) (o : Orders) :
    OnlyWrites quietStateFields s ((stateOrder o).foldl (stateArrive k m) s) :=
  List.foldlRecOn _ _ (motive := fun u => OnlyWrites quietStateFields s u) .refl fun u hu a _ => stateArrive_quiet h u a hu

theorem stateArrive_requester {a : StateArrival} (ha : a ≠ .published)
    (h : forward s.settle.frame m.settled = 0 ∨ 32768 ≤ forward s.settle.frame m.settled) {u : State}
    (w : OnlyWrites quietStateFields s u) : (stateArrive k m u a).requester = u.requester := by
  cases a with
  | published => exact absurd rfl ha
  | record => exact tableTakeState_writes k m u .requester (by decide)
  | catchUp =>
    rw [show stateArrive k m u .catchUp = settleTakeState k m u from rfl,
      settleTakeState_of_not_ahead (by rw [show u.settle = s.settle from w .settle (by decide)]; exact h)]

theorem markPublished_published (a : Nat) (s : State) :
    (markPublished a s).requester.published = s.requester.published.set a true :=
  (gapScan_keeps _).2.2

/-- A published offer of the open frame, at the requester of a MEMBER that is a sink, whatever arrived before it (R137). -/
theorem stateArrive_published {a : Nat} (hm : s.isMember = true) (hsink : s.image.sinkRole = true)
    (hk : k ≠ s.image.stationNumber) (hdigest : m.digest = s.digest) (hoffer : m.offer = some ⟨a, some s.openFrame, true⟩)
    (hcontributes : s.image.contributes a = true) (hpublisher : (s.image.stream a).publisher = k) {u : State}
    (w : OnlyWrites quietStateFields s u) : stateArrive k m u .published = markPublished a u := by
  have himage : u.image = s.image := image_of_writes w (by decide)
  have hopen : u.openFrame = s.openFrame := congrArg (fun x : Settle => x.frame + 1) (w .settle (by decide))
  refine requesterTakeState_of_some ?_ (declaresPublished_eq_some ?_ ?_ ?_ ?_ ?_)
  · rw [State.actsAsSink, isMember_of_writes w (by decide), hm, himage, hsink]
    rfl
  · rw [himage]
    exact hk
  · exact hdigest.trans (digest_of_writes w (by decide)).symm
  · rw [hopen]
    exact hoffer
  · rw [himage]
    exact hcontributes
  · rw [himage]
    exact hpublisher

/-- Taking the STATE of a station that is PRESENT leaves every station as PRESENT as it was. -/
theorem tableTakeState_present (hk : k ≠ s.image.stationNumber) (hdigest : m.digest = s.digest) (hlength : s.members.length = 32)
    (hlow : k < 32) (h : s.present k = true) (j : Nat) : (tableTakeState k m s).present j = s.present j := by
  rw [State.present, tableTakeState_member hk hdigest hlength hlow]
  split
  next hj =>
    rw [hj, h]
    rfl
  · rfl

theorem stateArrivals_published {a : Nat} (h : forward s.settle.frame m.settled = 0 ∨ 32768 ≤ forward s.settle.frame m.settled)
    (hpublished : ∀ u, OnlyWrites quietStateFields s u → stateArrive k m u .published = markPublished a u) (o : Orders) :
    ((stateOrder o).foldl (stateArrive k m) s).requester.published = s.requester.published.set a true := by
  refine stateArrivals_passes (a₀ := .published) (fs := quietStateFields) (P := fun u => u.requester = s.requester)
    (Q := fun u => u.requester.published = s.requester.published.set a true) (stateArrive_quiet h)
    (fun u b hb w hu => (stateArrive_requester hb h w).trans hu)
    (fun u b hb w hu => (congrArg Requester.published (stateArrive_requester hb h w)).trans hu) (fun u w hu => ?_) rfl o
  rw [hpublished u w, markPublished_published, hu]

/-- From a station that was PRESENT, the gap scan is the one of the table as it stood. -/
theorem stateArrivals_scanned {a : Nat} (h : forward s.settle.frame m.settled = 0 ∨ 32768 ≤ forward s.settle.frame m.settled)
    (hpublished : ∀ u, OnlyWrites quietStateFields s u → stateArrive k m u .published = markPublished a u)
    (hk : k ≠ s.image.stationNumber) (hdigest : m.digest = s.digest) (hlength : s.members.length = 32) (hlow : k < 32)
    (hpresent : s.present k = true) (o : Orders) : ((stateOrder o).foldl (stateArrive k m) s).requester =
      (gapScan (s.setRequester { s.requester with published := s.requester.published.set a true })).requester := by
  refine (stateArrivals_passes (a₀ := .published) (fs := quietStateFields)
    (P := fun u => u.requester = s.requester ∧ u.members.length = 32 ∧ ∀ j, u.present j = s.present j)
    (Q := fun u => u.requester =
      (gapScan (s.setRequester { s.requester with published := s.requester.published.set a true })).requester)
    (stateArrive_quiet h) (fun u b hb w ⟨hrequester, hlen, hp⟩ => ⟨(stateArrive_requester hb h w).trans hrequester, ?_⟩)
    (fun u b hb w hu => (stateArrive_requester hb h w).trans hu) (fun u w ⟨hrequester, hlen, hp⟩ => ?_)
    ⟨rfl, hlength, fun _ => rfl⟩ o)
  · cases b with
    | published => exact absurd rfl hb
    | catchUp =>
      rw [show stateArrive k m u .catchUp = settleTakeState k m u from rfl,
        settleTakeState_of_not_ahead (by rw [show u.settle = s.settle from w .settle (by decide)]; exact h)]
      exact ⟨hlen, hp⟩
    | record =>
      have hk' : k ≠ u.image.stationNumber := by
        rw [image_of_writes w (by decide)]
        exact hk
      have hdigest' : m.digest = u.digest := hdigest.trans (digest_of_writes w (by decide)).symm
      refine ⟨?_, fun j => ?_⟩
      · show (tableTakeState k m u).members.length = 32
        rw [tableTakeState_members hk' hdigest', List.length_set, hlen]
      · exact (tableTakeState_present hk' hdigest' hlen hlow ((hp k).trans hpresent) j).trans (hp j)
  · rw [hpublished u w, markPublished, hrequester]
    exact gapScan_congr_present rfl (w .loader (by decide)) (w .coverage (by decide)) hp (w .settle (by decide))

end

theorem present_iff {s : State} {k : Nat} : s.present k = true ↔ (s.member k).status = .present := by
  rw [State.present, beq_iff_eq]

/-- Settles O39. -/
theorem stateReachesTableAndSettle : Obligations.StateReachesTableAndSettle := by
  intro s heard o k m hm h hlow hlength
  have hexec : exec (.burstTaken heard o) s = .next ((stateOrder o).foldl (stateArrive k m) (afterBurst s)) :=
    burstTaken_delivered h hm o
  refine ⟨fun hk hdigest => ?_, fun hk hdigest => ?_, fun _ => rfl, fun u a => ⟨composeFor_of_not_wanted, fun hw => ?_⟩,
    fun hk => ?_⟩
  · rw [hexec, stateArrivals_table_alone, tableTakeState_differing (s := afterBurst s) hk hdigest]
    · rfl
    · intro u w
      have hdigest' : m.digest ≠ u.digest := by
        rw [digest_of_writes w (by decide)]
        exact hdigest
      exact ⟨settleTakeState_of_not_taken (.inr hdigest'),
        requesterTakeState_of_none (declaresPublished_eq_none (.inr (.inr hdigest')))⟩
  · have hmember := stateArrivals_member (s := afterBurst s) hk hdigest hlength hlow o
    have hwrites : OnlyWrites stateFields (afterBurst s) ((stateOrder o).foldl (stateArrive k m) (afterBurst s)) :=
      foldl_writes _ (stateArrive_writes k m) _ _
    have hplain (i : Nat) {e : MemberEntry}
        (he : (((stateOrder o).foldl (stateArrive k m) (afterBurst s)).member i).plain = e.plain) :
        (((stateOrder o).foldl (stateArrive k m) (afterBurst s)).member i).status = e.status ∧
        (((stateOrder o).foldl (stateArrive k m) (afterBurst s)).member i).source = e.source ∧
        (((stateOrder o).foldl (stateArrive k m) (afterBurst s)).member i).sink = e.sink ∧
        (((stateOrder o).foldl (stateArrive k m) (afterBurst s)).member i).rounds = e.rounds ∧
        (((stateOrder o).foldl (stateArrive k m) (afterBurst s)).member i).record = e.record :=
      ⟨(congrArg MemberEntry.status he :), (congrArg MemberEntry.source he :), (congrArg MemberEntry.sink he :),
        (congrArg MemberEntry.rounds he :), (congrArg MemberEntry.record he :)⟩
    obtain ⟨hstatus, hsource, hsink, hrounds, hrecord⟩ := hplain k ((hmember k).trans (congrArg _ (if_pos rfl)))
    refine ⟨_, hexec, hwrites .bus (by decide), hstatus, hsource, hsink, hrounds, hrecord, fun i hi => ?_, fun hahead => ?_,
      fun hquiet => ⟨?_, fun hoffer => ?_, fun a hoffer hsinkRole hcontributes hpublisher => ?_⟩, rfl, stateOrder_perm o, fun _ => rfl⟩
    · obtain ⟨hstatus, -, -, hrounds, hrecord⟩ := hplain i ((hmember i).trans (congrArg _ (if_neg hi)))
      exact ⟨hstatus, hrecord, hrounds⟩
    · exact stateArrivals_settle_of_ahead (s := afterBurst s) hk hdigest hahead.1 hahead.2 o
    · exact .followedBy ((setBus_writes _ _).widen (by decide)) (stateArrivals_quiet (s := afterBurst s) hquiet o) (by decide)
    · rw [stateArrivals_table_alone, tableTakeState_matching (s := afterBurst s) hk hdigest]
      · rfl
      · intro u w
        refine ⟨settleTakeState_of_not_ahead ?_, requesterTakeState_of_none (declaresPublished_eq_none (.inl hoffer))⟩
        rw [show u.settle = s.settle from w .settle (by decide)]
        exact hquiet
    · have hpublished (u : State) (w : OnlyWrites quietStateFields (afterBurst s) u) :=
        stateArrive_published (s := afterBurst s) hm hsinkRole hk hdigest hoffer hcontributes hpublisher w
      refine ⟨stateArrivals_published (s := afterBurst s) hquiet hpublished o, fun hpresent => ?_⟩
      refine (stateArrivals_scanned (s := afterBurst s) hquiet hpublished hk hdigest hlength hlow (present_iff.2 hpresent) o).trans ?_
      exact gapScan_congr rfl rfl rfl rfl rfl
  · exact ⟨newEntry u a, newEntry_composedFor hw, composeFor_of_wanted hw⟩
  · rw [hexec, stateArrivals_table_alone, tableTakeState_own (s := afterBurst s) hk]
    · rfl
    · intro u w
      have hk' : k = u.image.stationNumber := hk.trans (congrArg Image.stationNumber (image_of_writes w (by decide))).symm
      exact ⟨settleTakeState_of_not_taken (.inl hk'), requesterTakeState_of_none (declaresPublished_eq_none (.inr (.inl hk')))⟩

end Sys2Proof.Machine
end

section
/-! What a burst heard can be by its kind code, and what its delivery leaves to the item that has passed. -/

namespace Sys2Proof.Machine

/-! ## Bodies by kind code (R170, R173) -/

section
variable {img : Image} {bs : List Byte} {body : Body}

theorem decodeSegment_eq_some (h : decodeSegment img bs = some body) : ∃ m, body = .segment m := by
  unfold decodeSegment at h
  dsimp only at h
  rw [Option.ite_none_right_eq_some] at h
  exact ⟨_, (Option.some.inj h.2).symm⟩

theorem decodeRequest_eq_some (h : decodeRequest bs = some body) : ∃ q, body = .request q := by
  unfold decodeRequest at h
  dsimp only at h
  rw [Option.ite_none_right_eq_some] at h
  exact ⟨_, (Option.some.inj h.2).symm⟩

theorem decodeStatus_eq_some (h : decodeStatus bs = some body) : ∃ m, body = .status m := by
  rw [decodeStatus, Option.ite_none_right_eq_some] at h
  obtain ⟨oc, -, hbody⟩ := Option.map_eq_some_iff.1 h.2
  exact ⟨_, hbody.symm⟩

theorem decodeBody_segment (h : kindBits bs = 3) : decodeBody img bs = decodeSegment img bs := by
  unfold decodeBody
  rw [h]
  rfl

theorem decodeBody_request (h : kindBits bs = 4) : decodeBody img bs = decodeRequest bs := by
  unfold decodeBody
  rw [h]
  rfl

theorem decodeBody_status (h : kindBits bs = 5) : decodeBody img bs = decodeStatus bs := by
  unfold decodeBody
  rw [h]
  rfl

/-- What the bus interface takes is what the bytes decode to. -/
theorem judge_cases (img : Image) (p : Position) (repeated : Bool) (bs : List Byte) :
    (judge img p repeated bs).discarded = true ∨
      ∃ body, decodeBody img bs = some body ∧ judge img p repeated bs = .valid ⟨senderBits bs, body⟩ := by
  unfold judge
  split
  · exact .inl rfl
  · split
    · exact .inl rfl
    · cases hbody : decodeBody img bs with
      | none => exact .inl rfl
      | some body => exact .inr ⟨body, rfl, rfl⟩

end

/-- A burst judged `j` is discarded, or has a body of this sort. -/
def Brings (j : Judgment) (sort : Body → Prop) : Prop := j.discarded = true ∨ ∃ k body, j = .valid ⟨k, body⟩ ∧ sort body

theorem brings_of_decode {img : Image} {p : Position} {repeated : Bool} {bs : List Byte} {sort : Body → Prop}
    (h : ∀ body, decodeBody img bs = some body → sort body) : Brings (judge img p repeated bs) sort := by
  rcases judge_cases img p repeated bs with hdiscarded | ⟨body, hbody, hvalid⟩
  · exact .inl hdiscarded
  · exact .inr ⟨_, body, hvalid, h body hbody⟩

theorem brings_segment {img : Image} {p : Position} {repeated : Bool} {bs : List Byte} (h : kindBits bs = 3) :
    Brings (judge img p repeated bs) (fun body => ∃ m, body = .segment m) :=
  brings_of_decode fun _ hbody => decodeSegment_eq_some ((decodeBody_segment h).symm.trans hbody)

theorem brings_request {img : Image} {p : Position} {repeated : Bool} {bs : List Byte} (h : kindBits bs = 4) :
    Brings (judge img p repeated bs) (fun body => ∃ q, body = .request q) :=
  brings_of_decode fun _ hbody => decodeRequest_eq_some ((decodeBody_request h).symm.trans hbody)

theorem brings_status {img : Image} {p : Position} {repeated : Bool} {bs : List Byte} (h : kindBits bs = 5) :
    Brings (judge img p repeated bs) (fun body => ∃ m, body = .status m) :=
  brings_of_decode fun _ hbody => decodeStatus_eq_some ((decodeBody_status h).symm.trans hbody)

/-! ## Deliveries to a MEMBER -/

theorem deliver_of_member {s : State} (hm : s.isMember = true) (b : Burst) (o : Orders) :
    deliver (.valid b) o s = deliverMember b o s := if_pos hm

/-- A delivery to a MEMBER leaves the bus interface, and the station, as they are. -/
theorem deliver_writes_of_member {s : State} (hm : s.isMember = true) (j : Judgment) (o : Orders) :
    OnlyWrites [.settle, .members, .capture, .ring, .publishQueue, .responder, .coverage, .landing, .engine, .banks, .freeSeq,
      .requester, .port] s (deliver j o s) := by
  cases j with
  | valid b =>
    rw [deliver_of_member hm]
    exact deliverMember_writes b o s
  | checkFailure => exact .refl
  | misplaced => exact .refl
  | malformed => exact .refl

/-! ## A SEGMENT delivered -/

section
variable {s t : State}

/-- What the segment filter counts. -/
abbrev filterCounters : List Counter := [.stale, .early, .duplicate, .overflow, .piecesClaimed]

/-- What the delivery of a SEGMENT leaves alone. -/
structure SegmentTaken (s t : State) : Prop where
  writes : OnlyWrites [.coverage, .landing, .engine, .requester, .port] s t
  reports : Reports filterCounters s t
  published : t.requester.published = s.requester.published

theorem SegmentTaken.refl : SegmentTaken s s := ⟨.refl, .refl, rfl⟩

theorem SegmentTaken.trans {u : State} (h : SegmentTaken s t) (h' : SegmentTaken t u) : SegmentTaken s u :=
  ⟨.followedBy h.writes h'.writes (by decide), h.reports.trans h'.reports, h'.published.trans h.published⟩

theorem closeEntry_published (code : ConditionCode) (e : RepairEntry) (s : State) :
    (closeEntry code e s).requester.published = s.requester.published := by
  rw [closeEntry_requester, (gapScan_keeps _).2.2, State.setRequester_requester]

theorem takeClaim_published (k row : Nat) (s : State) : (takeClaim k row s).requester.published = s.requester.published := by
  unfold takeClaim
  split
  · rfl
  · split
    · split
      · exact closeEntry_published .withdrawn _ s
      · exact closeEntry_published .satisfied _ s
      · rfl
    · rfl

theorem claim_reports (p : Piece) (s : State) : Reports [.piecesClaimed] s (claim p s) := by
  have hraise := raise_reports .piecesClaimed 1 s
  have hport := claim_port p s
  refine ⟨?_, fun d hd => ?_, ?_⟩
  · rw [hport]
    exact hraise.length
  · rw [State.counter, hport]
    exact hraise.counters d hd
  · rw [hport]
    exact hraise.events

theorem filterSegment_taken (p : Piece) (s : State) : SegmentTaken s (filterSegment p s) := by
  have hraise (c : Counter) (hc : ∀ d ∈ [c], d ∈ filterCounters) : SegmentTaken s (raise c 1 s) :=
    ⟨(raise_writes _ _ _).widen (by decide), (raise_reports _ _ _).widen hc, rfl⟩
  unfold filterSegment
  split
  · exact .refl
  · exact .refl
  · exact hraise .stale (by decide)
  · exact hraise .early (by decide)
  · exact hraise .duplicate (by decide)
  · exact hraise .overflow (by decide)
  · refine ⟨claim_writes p s, (claim_reports p s).widen (by decide), ?_⟩
    rw [claim_requester, takeClaim_published]
    rfl

theorem takeRepairMark_taken (r : RepairMark) (s : State) : SegmentTaken s (takeRepairMark r s) := by
  have w := takeRepairMark_writes r s
  refine ⟨w.widen (by decide), .of_writes w, ?_⟩
  unfold takeRepairMark
  split <;> rfl

theorem takeSegment_taken (m : SegmentFields) (s : State) : SegmentTaken s (takeSegment m s) := by
  unfold takeSegment
  split
  · dsimp only
    split
    · exact (takeRepairMark_taken _ s).trans (filterSegment_taken _ _)
    · exact filterSegment_taken _ s
  · exact .refl

theorem deliver_segment_taken {j : Judgment} (h : Brings j (fun body => ∃ m, body = .segment m)) (hm : s.isMember = true)
    (o : Orders) : SegmentTaken s (deliver j o s) := by
  rcases h with h | ⟨k, body, rfl, m, rfl⟩
  · rw [deliver_of_discarded h]
    exact .refl
  · rw [deliver_of_member hm]
    exact takeSegment_taken m s

end

/-! ## A REQUEST and a STATUS delivered -/

section
variable {s : State}

/-- What the repair responder counts of a REQUEST. -/
abbrev requestCounters : List Counter := [.requestsIgnored, .requestsRefused, .statusesDropped]

theorem offerReply_reports (m : StatusFields) (s : State) : Reports [.statusesDropped] s (offerReply m s) := by
  unfold offerReply
  split
  · exact .of_writes (setResponder_writes _ _)
  · exact raise_reports _ _ _

theorem afterWalk_reports {next : State → State} (h : ∀ s, Reports [.statusesDropped] s (next s)) (r : QueuedRequest)
    (rest : List QueuedRequest) (s : State) (e : WalkEnd) : Reports [.statusesDropped] s (afterWalk r rest next s e) := by
  cases e with
  | found c x gone => exact .of_writes (setResponder_writes _ _)
  | exhausted gone => exact (offerReply_reports _ s).trans (h _)

theorem serve_reports (l : List QueuedRequest) : ∀ s, Reports [.statusesDropped] s (serve l s) := by
  induction l with
  | nil => exact fun s => .of_writes (setResponder_writes _ _)
  | cons r rest ih => exact fun s => afterWalk_reports ih r rest s _

theorem takeRequest_reports (k : Nat) (q : RequestFields) (s : State) : Reports requestCounters s (takeRequest k q s) := by
  have hreply (oc : Outcome) : Reports requestCounters s (offerReply (immediateStatus k q oc) s) :=
    (offerReply_reports _ s).widen (by decide)
  unfold takeRequest
  split
  · unfold testRequest
    split
    · exact (raise_reports _ _ _).widen (by decide)
    split
    · exact hreply .gone
    split
    · exact hreply .malformed
    split
    · exact .refl
    split
    · exact (hreply .refused).trans ((raise_reports _ _ _).widen (by decide))
    · by_cases hq : s.responder.queue = []
      · rw [acceptRequest_of_nil hq]
        exact (serve_reports _ s).widen (by decide)
      · rw [acceptRequest_of_ne_nil hq]
        exact .of_writes (setResponder_writes _ _)
  · exact .refl

theorem deliver_request_taken {j : Judgment} (h : Brings j (fun body => ∃ q, body = .request q)) (hm : s.isMember = true)
    (o : Orders) : OnlyWrites [.responder, .port] s (deliver j o s) ∧ Reports requestCounters s (deliver j o s) := by
  rcases h with h | ⟨k, body, rfl, q, rfl⟩
  · rw [deliver_of_discarded h]
    exact ⟨.refl, .refl⟩
  · rw [deliver_of_member hm]
    exact ⟨takeRequest_writes k q s, takeRequest_reports k q s⟩

theorem deliver_status_taken {j : Judgment} (h : Brings j (fun body => ∃ m, body = .status m)) (hm : s.isMember = true)
    (o : Orders) : OnlyWrites [.requester, .port] s (deliver j o s) := by
  rcases h with h | ⟨k, body, rfl, m, rfl⟩
  · rw [deliver_of_discarded h]
    exact .refl
  · rw [deliver_of_member hm]
    show OnlyWrites _ s (if s.image.sinkRole then takeStatus k m s else s)
    split
    · exact takeStatus_writes k m s
    · exact .refl

end

end Sys2Proof.Machine
end

section
/-! A clean readback: the item that has passed leaves, and its owner goes on. -/

namespace Sys2Proof.Machine

/-! ## The end of a burst that has passed (R34, R35) -/

section
variable {s : State} {d : Driving} {heard : List Byte} {opens : Bool} {j : Judgment}

/-- The bus interface after a clean readback of `item`. -/
def passedBus (item : SentItem) (b : Bus) : Bus :=
  { b with hearing := none, driving := none, consecutiveFaults := 0, collisions := if item = .state then 0 else b.collisions,
           markClaim := b.markClaim && !item.isMark }

/-- The station when the clean readback of `item` and the judgment of what was heard have been counted. -/
def passedOver (item : SentItem) (j : Judgment) (s : State) : State := countJudgment j (s.setBus (passedBus item s.bus))

theorem settleReadback_clean (item : SentItem) (s : State) :
    settleReadback (some (item, .clean)) s = s.setBus (passedBus item s.bus) := by
  have hbus : passedBus item s.bus = { s.bus with
      hearing := none, driving := none, consecutiveFaults := 0,
      collisions := if item.isState = true then 0 else s.bus.collisions, markClaim := s.bus.markClaim && !item.isMark } := by
    rw [passedBus]
    exact congrArg (fun n => { s.bus with
      hearing := none, driving := none, consecutiveFaults := 0, collisions := n, markClaim := s.bus.markClaim && !item.isMark })
      (if_congr isState_iff.symm rfl rfl)
  rw [hbus]
  rfl

theorem passedOver_bus (item : SentItem) (j : Judgment) (s : State) : (passedOver item j s).bus = passedBus item s.bus :=
  countJudgment_bus j _

theorem passedOver_writes (item : SentItem) (j : Judgment) (s : State) : OnlyWrites [.bus, .port] s (passedOver item j s) :=
  .followedBy ((setBus_writes _ _).widen (by decide)) (countJudgment_writes j _) (by decide)

theorem passedOver_reports (item : SentItem) (j : Judgment) (s : State) :
    Reports [.checkFailures, .misplacedBursts] s (passedOver item j s) :=
  .trans (.of_writes (setBus_writes s (passedBus item s.bus))) (countJudgment_reports j _)

theorem passedOver_member (hm : s.isMember = true) (item : SentItem) (j : Judgment) : (passedOver item j s).isMember = true :=
  (isMember_of_writes (passedOver_writes item j s) (by decide)).trans hm

/-- A burst that passes is taken whole: it makes its round start, or its report and its delivery come in the order given. -/
theorem burstTaken_passed (h : Drives s d heard opens j) (hclean : readback d.contested d.bytes heard = .clean) (o : Orders) :
    exec (.burstTaken heard o) s = .next (if opens then roundArrivals (roundContent (some d.item) j) o (passedOver d.item j s)
      else reportAndDeliver (some d.item) j o (passedOver d.item j s)) := by
  obtain ⟨hm, ⟨x, hhearing, hopens, hjudge⟩, hdriving⟩ := h
  have hon : s.onTheBus = true := by
    rw [State.onTheBus, hm]
    rfl
  have hstays : (s.setBus (passedBus d.item s.bus)).isIsolated = false := not_isolated_of_onTheBus hon
  refine congrArg Host.Outcome.next ?_
  rw [takeBurst_eq hon hhearing, ownReadback_eq hdriving, hclean, settleReadback_clean, hstays, if_neg Bool.false_ne_true, hjudge,
    concludeBurst, hopens, show countJudgment j (s.setBus (passedBus d.item s.bus)) = passedOver d.item j s from rfl,
    roundStart_of_member (passedOver_member hm d.item j)]
  rfl

end

/-! ## A fresh piece that has passed (R94, R100) -/

section
variable {s t u : State}

theorem drop_one_eq_nil_iff {α : Type} {l : List α} : l.drop 1 = [] ↔ l.length ≤ 1 := List.drop_eq_nil_iff

/-- What the passage of a fresh piece leaves of the capture unit, and of the published marks. -/
structure FreshLeft (s t : State) : Prop where
  queue : t.publishQueue = s.publishQueue.drop 1
  capture : t.capture = { s.capture with published := t.capture.published }
  flag : t.capture.published = true ↔ s.capture.published = true ∨
    (s.capture.offer ≠ none ∧ s.capture.state = .holding ∧ s.publishQueue.length ≤ 1)
  marks : ∀ a, s.image.ownStream = some a → t.requester.published =
    (if s.capture.published = false ∧ t.capture.published = true ∧ s.image.sinkRole = true ∧ s.image.contributes a = true
      then s.requester.published.set a true else s.requester.published)

theorem ownPublished_published {a : Nat} (h : s.image.ownStream = some a) (s' : State) (himage : s'.image = s.image) :
    (ownPublished s').requester.published =
      if s.image.contributes a = true then s'.requester.published.set a true else s'.requester.published := by
  rw [ownPublished, ownStreamId_of_own (himage ▸ h), himage]
  split
  · exact markPublished_published a s'
  · exact (gapScan_keeps s').2.2

/-- The published mark of the own stream goes with the published flag (R94, R137). -/
theorem checkPublished_marks {a : Nat} (hm : s.isMember = true) (h : s.image.ownStream = some a) :
    (checkPublished s).requester.published =
      (if s.capture.published = false ∧ (checkPublished s).capture.published = true ∧ s.image.sinkRole = true ∧
          s.image.contributes a = true then s.requester.published.set a true else s.requester.published) := by
  by_cases hset : (publishedConditions s && !s.capture.published) = true
  · have hacts : (s.setCapture { s.capture with published := true }).actsAsSink = s.image.sinkRole := by
      rw [State.actsAsSink, show (s.setCapture { s.capture with published := true }).isMember = true from hm, Bool.true_and]
      rfl
    have hflag : (checkPublished s).capture.published = true := by
      rw [Bool.and_eq_true] at hset
      refine checkPublished_flag s |>.2 (.inr ?_)
      simpa [publishedConditions, and_assoc, Option.isSome_iff_ne_none] using hset.1
    rw [hflag]
    rw [checkPublished, if_pos hset]
    dsimp only
    rw [Bool.and_eq_true, Bool.not_eq_true'] at hset
    rw [hacts, hset.2]
    simp only [true_and]
    by_cases hsink : s.image.sinkRole = true
    · rw [if_pos hsink, ownPublished_published (s := s) h (s.setCapture { s.capture with published := true }) rfl]
      exact if_congr (and_iff_right hsink).symm rfl rfl
    · rw [if_neg hsink, if_neg (fun hc => hsink hc.1)]
      rfl
  · rw [show checkPublished s = s from if_neg hset, if_neg]
    rintro ⟨hclear, hflag, -⟩
    exact Bool.false_ne_true (hclear.symm.trans hflag)

theorem freshPassed_left (hm : u.isMember = true) (himage : u.image = s.image) (hcapture : u.capture = s.capture)
    (hqueue : u.publishQueue = s.publishQueue) (hpublished : u.requester.published = s.requester.published) :
    FreshLeft s (freshPassed u) := by
  have hrequester : (u.setPublishQueue (u.publishQueue.drop 1)).requester.published = s.requester.published := hpublished
  refine ⟨?_, ?_, ?_, fun a ha => ?_⟩
  · rw [freshPassed, checkPublished_queue, ← hqueue]
    rfl
  · rw [freshPassed, checkPublished_capture, ← hcapture]
    rfl
  · rw [freshPassed, checkPublished_flag, ← hcapture, ← hqueue, ← drop_one_eq_nil_iff]
    rfl
  · rw [← himage] at ha ⊢
    rw [← hcapture, ← hpublished]
    exact checkPublished_marks (s := u.setPublishQueue (u.publishQueue.drop 1)) hm ha

/-- A SEGMENT heard with it changes none of that. -/
theorem FreshLeft.taken (h : FreshLeft s t) (k : SegmentTaken t u) : FreshLeft s u := by
  obtain ⟨hqueue, hcapture, hflag, hmarks⟩ := h
  have hkept : u.capture = t.capture := k.writes .capture (by decide)
  refine ⟨(k.writes .publishQueue (by decide)).trans hqueue, ?_, ?_, fun a ha => ?_⟩
  · rw [hkept]
    exact hcapture
  · rw [hkept]
    exact hflag
  · rw [hkept, k.published]
    exact hmarks a ha

end

/-! ## A repair SEGMENT that has passed (R158, R159) -/

section
variable {s t u w : State}

/-- Two states in which a service goes the same way and counts the same. -/
structure ServesAlike (u w : State) : Prop where
  loader : u.loader = w.loader
  settle : u.settle = w.settle
  ring : u.ring = w.ring
  replies : u.responder.replies = w.responder.replies
  length : u.port.counters.length = 22 ∧ w.port.counters.length = 22
  dropped : u.counter .statusesDropped = w.counter .statusesDropped

theorem ServesAlike.ownEntry (h : ServesAlike u w) : ownEntry u = ownEntry w := by
  rw [Machine.ownEntry, Machine.ownEntry, State.image, State.image, h.loader]

theorem ServesAlike.repairSegment (h : ServesAlike u w) (r : QueuedRequest) (e : RingEntry) :
    repairSegment u r e = repairSegment w r e := by
  simp only [Machine.repairSegment, ownStreamId, State.openFrame, h.ownEntry, State.image, h.loader, h.settle]

theorem ServesAlike.offerReply (h : ServesAlike u w) (m : StatusFields) : ServesAlike (offerReply m u) (offerReply m w) := by
  obtain ⟨hloader, hsettle, hring, hreplies, ⟨hlength, hlength'⟩, hdropped⟩ := h
  by_cases hroom : w.responder.replies.length < 4
  · rw [offerReply_of_room hroom, offerReply_of_room (hreplies ▸ hroom)]
    exact ⟨hloader, hsettle, hring, congrArg (· ++ [m]) hreplies, ⟨hlength, hlength'⟩, hdropped⟩
  · rw [offerReply_of_full (Nat.not_lt.1 hroom), offerReply_of_full (hreplies ▸ Nat.not_lt.1 hroom)]
    refine ⟨hloader, hsettle, hring, hreplies, ?_, ?_⟩
    · rw [raise_counters_length, raise_counters_length]
      exact ⟨hlength, hlength'⟩
    · rw [counter_raise_self hlength, counter_raise_self hlength', hdropped]

theorem serve_alike_responder (l : List QueuedRequest) : ∀ {u w : State}, ServesAlike u w →
    (serve l u).responder = (serve l w).responder ∧
      (serve l u).counter .statusesDropped = (serve l w).counter .statusesDropped := by
  induction l with
  | nil =>
    intro u w h
    rw [serve_nil, serve_nil]
    exact ⟨congrArg (Responder.mk [] none none) h.replies, h.dropped⟩
  | cons r rest ih =>
    intro u w h
    cases hwalk : walk w.ring (requestPieces (ownEntry w) r.fields) r.gone with
    | found c e gone =>
      rw [serve_found hwalk, serve_found (s := u) (by rw [h.ring, h.ownEntry]; exact hwalk), h.repairSegment]
      exact ⟨congrArg (Responder.mk _ _ _) h.replies, h.dropped⟩
    | exhausted gone =>
      rw [serve_exhausted hwalk, serve_exhausted (s := u) (by rw [h.ring, h.ownEntry]; exact hwalk)]
      exact ih (h.offerReply _)

/-- The STATUS that ends a service of which a piece has passed (R159). -/
def endStatus (r : QueuedRequest) (gone : Nat) : StatusFields :=
  { requester := r.requester, tag := r.fields.tag, outcome := if gone = 0 then .delivered else .partly, frame := r.fields.frame,
    sent := min 4095 (r.sent + 1), gone := gone }

theorem serviceStatus_eq (r : QueuedRequest) (gone : Nat) :
    serviceStatus { r with sent := saturate Config.serviceCount r.sent 1, gone := gone } = endStatus r gone := by
  have hsent : saturate Config.serviceCount r.sent 1 = min 4095 (r.sent + 1) := rfl
  have hsome : min 4095 (r.sent + 1) ≠ 0 := by omega
  rw [serviceStatus, endStatus, serviceOutcome, hsent, if_neg hsome]

/-- What the passage of the repair slot's segment leaves of the responder, with the head request `r` of the queue, and the cursor
`c`, at its start. -/
structure SlotLeft (s t : State) (r : QueuedRequest) (rest : List QueuedRequest) (c : Cursor) : Prop where
  sent : t.counter .repairSegmentsSent = min 65535 (s.counter .repairSegmentsSent + 1)
  found : ∀ c' e gone, walk s.ring (piecesAfter c (requestPieces (ownEntry s) r.fields)) r.gone = .found c' e gone →
    t.responder = { s.responder with
      queue := { r with sent := min 4095 (r.sent + 1), gone := gone } :: rest, cursor := some c',
      slot := some (repairSegment s r e) }
  ended : ∀ gone, walk s.ring (piecesAfter c (requestPieces (ownEntry s) r.fields)) r.gone = .exhausted gone →
    t.responder = (serve rest (offerReply (endStatus r gone) s)).responder ∧
      t.counter .statusesDropped = (serve rest (offerReply (endStatus r gone) s)).counter .statusesDropped

/-- With the queue otherwise empty the responder falls idle. -/
theorem SlotLeft.idle {r : QueuedRequest} {c : Cursor} (h : SlotLeft s t r [] c) {gone : Nat}
    (hend : walk s.ring (piecesAfter c (requestPieces (ownEntry s) r.fields)) r.gone = .exhausted gone)
    (hroom : s.responder.replies.length < 4) : t.responder =
      { queue := [], cursor := none, slot := none, replies := s.responder.replies ++ [endStatus r gone] } := by
  rw [(h.ended gone hend).1, serve_nil, offerReply_of_room hroom]
  rfl

/-- A SEGMENT heard with it changes none of that. -/
theorem SlotLeft.taken {r : QueuedRequest} {rest : List QueuedRequest} {c : Cursor} (h : SlotLeft s t r rest c)
    (k : SegmentTaken t u) : SlotLeft s u r rest c := by
  obtain ⟨hsent, hfound, hended⟩ := h
  have hkept : u.responder = t.responder := k.writes .responder (by decide)
  refine ⟨(k.reports.counters _ (by decide)).trans hsent, fun c' e gone hw => hkept.trans (hfound c' e gone hw), fun gone hw => ?_⟩
  rw [hkept, k.reports.counters _ (by decide)]
  exact hended gone hw

theorem slotPassed_left {r : QueuedRequest} {rest : List QueuedRequest} {c : Cursor} (hresponder : u.responder = s.responder)
    (halike : ServesAlike u s) (hsent : u.counter .repairSegmentsSent = s.counter .repairSegmentsSent)
    (hqueue : s.responder.queue = r :: rest) (hcursor : s.responder.cursor = some c) : SlotLeft s (slotPassed u) r rest c := by
  have hemptied : ServesAlike ((raise .repairSegmentsSent 1 u).setResponder { u.responder with slot := none }) s := by
    refine ⟨halike.loader, halike.settle, halike.ring, halike.replies, ⟨?_, halike.length.2⟩, ?_⟩
    · exact (raise_counters_length .repairSegmentsSent 1 u).trans halike.length.1
    · exact (counter_raise_of_ne (by decide) 1 u).trans halike.dropped
  have hraised : ((raise .repairSegmentsSent 1 u).setResponder { u.responder with slot := none }).counter .repairSegmentsSent =
      min 65535 (s.counter .repairSegmentsSent + 1) := by
    rw [← hsent]
    exact counter_raise_self halike.length.1
  rw [slotPassed_eq (by rw [hresponder]; exact hqueue) (by rw [hresponder]; exact hcursor), halike.ring, halike.ownEntry]
  have hresponder' : ((raise .repairSegmentsSent 1 u).setResponder { u.responder with slot := none }).responder =
      { s.responder with slot := none } := by
    rw [← hresponder]
    rfl
  generalize (raise .repairSegmentsSent 1 u).setResponder { u.responder with slot := none } = v at hemptied hraised hresponder'
  refine ⟨?_, fun c' e gone hw => ?_, fun gone hw => ?_⟩
  · rw [(afterWalk_reports (serve_reports rest) _ _ _ _).counters _ (by decide)]
    exact hraised
  · rw [hw, afterWalk, State.setResponder_responder, hresponder', hemptied.repairSegment]
    rfl
  · rw [hw, afterWalk, show serviceStatus _ = endStatus r gone from serviceStatus_eq r gone]
    exact serve_alike_responder rest (hemptied.offerReply _)

end

end Sys2Proof.Machine
end

section
/-! Clean readbacks, item by item, with the delivery of what was heard before or after the report. -/

namespace Sys2Proof.Machine

section
variable {s : State} {j : Judgment} {o : Orders}

/-! ## The bus interface after a burst that has passed -/

/-- After its readback has been counted, the end of a MEMBER's burst leaves the bus interface. -/
theorem passed_bus (hm : s.isMember = true) (item : SentItem) (opens : Bool) (c : RoundContent) :
    (if opens then roundArrivals c o (passedOver item j s) else reportAndDeliver (some item) j o (passedOver item j s)).bus =
      passedBus item s.bus := by
  have hm' : (passedOver item j s).isMember = true := passedOver_member hm item j
  have hpassed (u : State) : (reportPassed (some item) u).bus = u.bus := reportPassed_writes _ u .bus (by decide)
  have hdelivered (u : State) (hu : u.isMember = true) : (deliver j o u).bus = u.bus :=
    deliver_writes_of_member hu j o .bus (by decide)
  rw [← passedOver_bus item j s]
  split
  · exact roundArrivals_writes c o _ .bus (by decide)
  · unfold reportAndDeliver
    split
    · rw [hdelivered _ ((isMember_of_writes (reportPassed_writes _ _) (by decide)).trans hm'), hpassed]
    · rw [hpassed, hdelivered _ hm']

/-! ## A SEGMENT of the station's own (R100, R158) -/

theorem passedOver_taken (item : SentItem) (j : Judgment) (s : State) : (passedOver item j s).capture = s.capture ∧
    (passedOver item j s).publishQueue = s.publishQueue ∧ (passedOver item j s).requester = s.requester ∧
    (passedOver item j s).responder = s.responder ∧ (passedOver item j s).image = s.image := by
  have w := passedOver_writes item j s
  exact ⟨w .capture (by decide), w .publishQueue (by decide), w .requester (by decide), w .responder (by decide),
    image_of_writes w (by decide)⟩

theorem fresh_passed (hm : s.isMember = true) (hj : Brings j (fun body => ∃ m, body = .segment m)) :
    FreshLeft s (reportAndDeliver (some .fresh) j o (passedOver .fresh j s)) ∧
      OnlyWrites [.bus, .publishQueue, .capture, .requester, .coverage, .landing, .engine, .port] s
        (reportAndDeliver (some .fresh) j o (passedOver .fresh j s)) := by
  obtain ⟨hcapture, hqueue, hrequester, -, himage⟩ := passedOver_taken .fresh j s
  have w := passedOver_writes .fresh j s
  have hm' : (passedOver .fresh j s).isMember = true := passedOver_member hm .fresh j
  generalize passedOver .fresh j s = v at *
  unfold reportAndDeliver
  split
  · have wfresh := freshPassed_writes v
    have htaken : SegmentTaken (freshPassed v) (deliver j o (freshPassed v)) :=
      deliver_segment_taken hj ((isMember_of_writes wfresh (by decide)).trans hm') o
    refine ⟨(freshPassed_left hm' himage hcapture hqueue (congrArg Requester.published hrequester)).taken htaken, ?_⟩
    exact .followedBy (.followedBy (w.widen (by decide)) wfresh (by decide)) htaken.writes (by decide)
  · have htaken : SegmentTaken v (deliver j o v) := deliver_segment_taken hj hm' o
    have wtaken := htaken.writes
    refine ⟨freshPassed_left ((isMember_of_writes wtaken (by decide)).trans hm')
      ((image_of_writes wtaken (by decide)).trans himage) ((wtaken .capture (by decide)).trans hcapture)
      ((wtaken .publishQueue (by decide)).trans hqueue) (htaken.published.trans (congrArg Requester.published hrequester)), ?_⟩
    exact .followedBy (.followedBy (w.widen (by decide)) wtaken (by decide)) (freshPassed_writes _) (by decide)

theorem ServesAlike.of_writes {fs : List Field} {cs : List Counter} {u : State} (w : OnlyWrites fs s u) (r : Reports cs s u)
    (hlength : s.port.counters.length = 22)
    (hfs : Field.loader ∉ fs ∧ Field.settle ∉ fs ∧ Field.ring ∉ fs ∧ Field.responder ∉ fs := by decide)
    (hcs : Counter.statusesDropped ∉ cs := by decide) : ServesAlike u s :=
  ⟨w .loader hfs.1, w .settle hfs.2.1, w .ring hfs.2.2.1, congrArg Responder.replies (w .responder hfs.2.2.2),
    ⟨r.length.trans hlength, hlength⟩, r.counters _ hcs⟩

theorem repair_passed (hm : s.isMember = true) (hj : Brings j (fun body => ∃ m, body = .segment m))
    (hlength : s.port.counters.length = 22) {r : QueuedRequest} {rest : List QueuedRequest} {c : Cursor}
    (hqueue : s.responder.queue = r :: rest) (hcursor : s.responder.cursor = some c) :
    SlotLeft s (reportAndDeliver (some .repair) j o (passedOver .repair j s)) r rest c ∧
      OnlyWrites [.bus, .responder, .requester, .coverage, .landing, .engine, .port] s
        (reportAndDeliver (some .repair) j o (passedOver .repair j s)) := by
  have w := passedOver_writes .repair j s
  have hreports := passedOver_reports .repair j s
  have hm' : (passedOver .repair j s).isMember = true := passedOver_member hm .repair j
  generalize passedOver .repair j s = v at *
  unfold reportAndDeliver
  split
  · have wslot := slotPassed_writes v
    have htaken : SegmentTaken (slotPassed v) (deliver j o (slotPassed v)) :=
      deliver_segment_taken hj ((isMember_of_writes wslot (by decide)).trans hm') o
    refine ⟨(slotPassed_left (w .responder (by decide)) (.of_writes w hreports hlength) (hreports.counters _ (by decide)) hqueue
      hcursor).taken htaken, ?_⟩
    exact .followedBy (.followedBy (w.widen (by decide)) wslot (by decide)) htaken.writes (by decide)
  · have htaken : SegmentTaken v (deliver j o v) := deliver_segment_taken hj hm' o
    have w' : OnlyWrites [.bus, .requester, .coverage, .landing, .engine, .port] s (deliver j o v) :=
      .followedBy (w.widen (by decide)) htaken.writes (by decide)
    have hreports' : Reports ([.checkFailures, .misplacedBursts] ++ filterCounters) s (deliver j o v) :=
      (hreports.widen (by decide)).trans (htaken.reports.widen (by decide))
    refine ⟨slotPassed_left (w' .responder (by decide)) (.of_writes w' hreports' hlength) (hreports'.counters _ (by decide)) hqueue
      hcursor, ?_⟩
    exact .followedBy (w'.widen (by decide)) (slotPassed_writes _) (by decide)

/-! ## A REQUEST and a STATUS of the station's own (R141, R160) -/

theorem requestPassed_requester (tag : Nat) (s : State) : (requestPassed tag s).requester = { s.requester with
    entries := s.requester.entries.map (fun e => if e.tag = tag then { e with state := .sent, wait := 0 } else e) } := rfl

theorem requestPassed_counter (tag : Nat) (h : s.port.counters.length = 22) :
    (requestPassed tag s).counter .requestsSent = min 65535 (s.counter .requestsSent + 1) :=
  counter_raise_self (s := changeEntry tag (fun e => { e with state := .sent, wait := 0 }) s) h

theorem request_passed (hm : s.isMember = true) (hj : Brings j (fun body => ∃ q, body = .request q))
    (hlength : s.port.counters.length = 22) (tag : Nat) :
    (reportAndDeliver (some (.request tag)) j o (passedOver (.request tag) j s)).requester = { s.requester with
        entries := s.requester.entries.map (fun e => if e.tag = tag then { e with state := .sent, wait := 0 } else e) } ∧
      (reportAndDeliver (some (.request tag)) j o (passedOver (.request tag) j s)).counter .requestsSent =
        min 65535 (s.counter .requestsSent + 1) ∧
      OnlyWrites [.bus, .responder, .requester, .port] s
        (reportAndDeliver (some (.request tag)) j o (passedOver (.request tag) j s)) := by
  obtain ⟨-, -, hrequester, -, -⟩ := passedOver_taken (.request tag) j s
  have w := passedOver_writes (.request tag) j s
  have hreports := passedOver_reports (.request tag) j s
  have hm' : (passedOver (.request tag) j s).isMember = true := passedOver_member hm (.request tag) j
  generalize passedOver (.request tag) j s = v at *
  have hsent : v.counter .requestsSent = s.counter .requestsSent := hreports.counters _ (by decide)
  unfold reportAndDeliver
  split
  · have wpassed := requestPassed_writes tag v
    obtain ⟨wtaken, htaken⟩ := deliver_request_taken hj ((isMember_of_writes wpassed (by decide)).trans hm') o
    refine ⟨?_, ?_, .followedBy (.followedBy (w.widen (by decide)) wpassed (by decide)) wtaken (by decide)⟩
    · exact (wtaken .requester (by decide)).trans ((requestPassed_requester tag v).trans (by rw [hrequester]))
    · exact (htaken.counters _ (by decide)).trans ((requestPassed_counter tag (hreports.length.trans hlength)).trans (by rw [hsent]))
  · obtain ⟨wtaken, htaken⟩ := deliver_request_taken hj hm' o
    refine ⟨?_, ?_, .followedBy (.followedBy (w.widen (by decide)) wtaken (by decide)) (requestPassed_writes tag _) (by decide)⟩
    · refine (requestPassed_requester tag _).trans ?_
      rw [wtaken .requester (by decide), hrequester]
    · refine (requestPassed_counter tag (htaken.length.trans (hreports.length.trans hlength))).trans ?_
      rw [htaken.counters _ (by decide), hsent]

theorem status_passed (hm : s.isMember = true) (hj : Brings j (fun body => ∃ m, body = .status m)) :
    (reportAndDeliver (some .status) j o (passedOver .status j s)).responder =
        { s.responder with replies := s.responder.replies.drop 1 } ∧
      OnlyWrites [.bus, .responder, .requester, .port] s (reportAndDeliver (some .status) j o (passedOver .status j s)) := by
  obtain ⟨-, -, -, hresponder, -⟩ := passedOver_taken .status j s
  have w := passedOver_writes .status j s
  have hm' : (passedOver .status j s).isMember = true := passedOver_member hm .status j
  generalize passedOver .status j s = v at *
  have hpassed (u : State) : (statusPassed u).responder = { u.responder with replies := u.responder.replies.drop 1 } := rfl
  unfold reportAndDeliver
  split
  · have wpassed := statusPassed_writes v
    have wtaken := deliver_status_taken hj ((isMember_of_writes wpassed (by decide)).trans hm') o
    refine ⟨?_, .followedBy (.followedBy (w.widen (by decide)) wpassed (by decide)) wtaken (by decide)⟩
    exact (wtaken .responder (by decide)).trans ((hpassed v).trans (by rw [hresponder]))
  · have wtaken := deliver_status_taken hj hm' o
    refine ⟨?_, .followedBy (.followedBy (w.widen (by decide)) wtaken (by decide)) (statusPassed_writes _) (by decide)⟩
    refine (hpassed _).trans ?_
    rw [wtaken .responder (by decide), hresponder]

/-! ## The station's own MARK (R20, R69) -/

/-- The open age raised by a round start. -/
theorem raiseOpenAge_eq (s : State) :
    raiseOpenAge s = s.setSettle { s.settle with openAge := min 65535 (s.settle.openAge + 1) } := rfl

theorem arrive_own_settle (hm : s.isMember = true) (m : MarkFields) (verdict : Bool) :
    arrive (.own m verdict) s .settle = takeOwnMark m verdict (raiseOpenAge s) := settleRoundStart_of_member hm _

theorem takeOwnMark_settle (m : MarkFields) (verdict : Bool) (s : State) : (takeOwnMark m verdict s).settle =
    if verdict = true ∧ m.kind ≠ .start then { s.settle with frame := s.settle.frame + 1, kind := m.kind, openAge := 0 }
    else s.settle := by
  unfold takeOwnMark
  cases verdict with
  | false => rfl
  | true =>
    cases hk : m.kind with
    | start => rfl
    | commit => exact settleCommit_settle s
    | abandon => exact settleAbandon_settle .ownMark s

theorem roundArrivals_own_settle (hm : s.isMember = true) (m : MarkFields) (verdict : Bool) :
    (roundArrivals (.own m verdict) o s).settle =
      if verdict = true ∧ m.kind ≠ .start then { s.settle with frame := s.settle.frame + 1, kind := m.kind, openAge := 0 }
      else { s.settle with openAge := min 65535 (s.settle.openAge + 1) } := by
  refine roundArrivals_settle (fun u w hu => ?_) o
  rw [settleRoundStart_of_member ((isMember_of_writes w (by decide)).trans hm)]
  refine (takeOwnMark_settle m verdict (raiseOpenAge u)).trans ?_
  rw [raiseOpenAge_eq, hu]
  rfl

end

/-- Settles O34. -/
theorem passedItemsLeave : Obligations.PassedItemsLeave := by
  intro s d heard opens j o h hclean hlength
  have hexec := burstTaken_passed h hclean o
  obtain ⟨hm, ⟨x, -, -, hjudge⟩, -⟩ := h
  refine ⟨_, hexec, passed_bus hm d.item opens _, ?_, fun u hu => checkPublished_tests (s := u.setPublishQueue _) hu .refl rfl,
    ?_, ?_, ?_, ?_⟩
  · intro hopens hitem hkind
    rw [hopens, hitem, if_neg Bool.false_ne_true]
    obtain ⟨⟨hqueue, hcapture, hflag, hmarks⟩, w⟩ := fresh_passed (o := o) hm (hjudge ▸ brings_segment hkind)
    refine ⟨hqueue, w, hcapture, hflag, hmarks, fun v hv => ?_⟩
    have hpassed : passedOver .fresh j s = v := by
      rw [hv, passedOver, passedBus, show SentItem.isMark .fresh = false from rfl, Bool.not_false, Bool.and_true]
      rfl
    rw [hpassed]
    rfl
  · intro hopens r rest c hitem hkind hqueue hcursor
    rw [hopens, hitem, if_neg Bool.false_ne_true]
    obtain ⟨hleft, w⟩ := repair_passed (o := o) hm (hjudge ▸ brings_segment hkind) hlength hqueue hcursor
    refine ⟨hleft.sent, w, hleft.found, fun gone w hend hw => ?_, fun gone hend hrest hroom => ?_⟩
    · rw [hw]
      exact hleft.ended gone hend
    · subst hrest
      exact hleft.idle hend hroom
  · intro hopens tag hitem hkind
    rw [hopens, hitem, if_neg Bool.false_ne_true]
    exact request_passed hm (hjudge ▸ brings_request hkind) hlength tag
  · intro hopens hitem hkind
    rw [hopens, hitem, if_neg Bool.false_ne_true]
    exact status_passed hm (hjudge ▸ brings_status hkind)
  · intro hopens m verdict hitem
    rw [hopens, hitem, if_pos rfl]
    have hm' : (passedOver (.mark m verdict) j s).isMember = true := passedOver_member hm _ j
    have w := passedOver_writes (.mark m verdict) j s
    refine ⟨?_, ?_, fun hj => ?_, fun u v hu hv => ?_⟩
    · refine (roundArrivals_roundTimer (.own m verdict) o _).trans ?_
      rw [image_of_writes w (by decide)]
      rfl
    · refine (roundArrivals_own_settle hm' m verdict).trans ?_
      rw [w .settle (by decide)]
    · have hpassed : passedOver (.mark m verdict) j s =
          s.setBus { s.bus with hearing := none, driving := none, consecutiveFaults := 0, markClaim := false } := by
        cases j with
        | valid b =>
          show s.setBus (passedBus (.mark m verdict) s.bus) = _
          rw [passedBus, show SentItem.isMark (.mark m verdict) = true from rfl, Bool.not_true, Bool.and_false]
          rfl
        | checkFailure => exact absurd hj (by decide)
        | misplaced => exact absurd hj (by decide)
        | malformed => exact absurd hj (by decide)
      rw [hpassed]
      rfl
    · rw [arrive_own_settle hu, raiseOpenAge_eq, ← hv]
      refine ⟨fun hverdict => ?_, fun hverdict hkind => ?_, fun hverdict hkind => ?_⟩
      · rw [takeOwnMark, if_neg (by rw [hverdict]; exact Bool.false_ne_true)]
      · rw [takeOwnMark, if_pos hverdict, hkind]
      · rw [takeOwnMark, if_pos hverdict, hkind]

end Sys2Proof.Machine
end
